-- ==== Sys2Proof/Word.lean ====
section
/-! DEFINITION. The word type of QMAG-PE: both streams move single bytes (20_memory.md R62, R66). -/

namespace Sys2Proof

/-- A byte is 8 bits, numbered 7 (most significant) down to 0 (00_scope.md R10). -/
abbrev Byte := BitVec 8

end Sys2Proof
end

