-- ==== Sys2Proof/Config.lean ====
section
/-! DEFINITION. The implementation parameters: constants the source fixes (00_scope.md R7), parameters it
leaves open (00_scope.md R8), and the free values of the status view (10_state.md R46). -/

namespace Sys2Proof

/-- The response protocol of opcodes 7 and 8 (00_scope.md R8, 43_acquisition_sequencer.md R238). -/
inductive Resp where
  | none
  | collect
  deriving DecidableEq, Repr

/-- The OPEN parameters a model takes as arguments and for which the spec gives a default
(00_scope.md R8, D15, D24): each is held in State and written by no rule (log 8). -/
structure Params where
  /-- The cycle counts outside CC_VALID; the default is none (log 10). -/
  ccExcluded : List (BitVec 16)
  respSendAvail : Resp
  respStopAll : Resp
  deriving DecidableEq, Repr

namespace Config

/-- CMD_LEN (00_scope.md R7). -/
def cmdLen : Nat := 10

/-- CKSUM_LEN (00_scope.md R7). -/
def cksumLen : Nat := 2

/-- TMRC_COUNT: the legal TMRC indices are 0..13 (00_scope.md R7). -/
def tmrcCount : Nat := 14

/-- IMU_FIELD_COUNT, in the order of 30_encoding.md R83 (00_scope.md R7). -/
def imuFieldCount : Vector Nat 9 := #v[12, 8, 2, 4, 8, 3, 2, 2, 5]

/-- CC_DEFAULT (00_scope.md R7). -/
def ccDefault : BitVec 16 := 200

/-- MASK_DEFAULT: all four magnetometers enabled (00_scope.md R7). -/
def maskDefault : BitVec 4 := 0xF

/-- INVALID_LIMIT: a session aborts when its invalid count exceeds it (00_scope.md R7, 90_conflicts.md C2; log 7). -/
def invalidLimit : Nat := 9

/-- The default payload's TMRC index, a legal index the source does not give (00_scope.md R8, D16; log 9). -/
opaque magDefaultTmrc : Fin 14

/-- MAG_DEFAULT_PAYLOAD: 00 C8, a legal TMRC index, six zeros (42_command_encoder.md R182; log 9). -/
def magDefaultPayload : Vector Byte 9 :=
  #v[0x00, 0xC8, BitVec.ofNat 8 magDefaultTmrc.val, 0, 0, 0, 0, 0, 0]

/-- Uninterpreted numbers behind IMU_DEFAULT_PAYLOAD (00_scope.md R8, D16; log 9). -/
opaque imuDefaultRaw : Nat → Nat

/-- Byte `k` of IMU_DEFAULT_PAYLOAD: some value below COUNT[k] (42_command_encoder.md R184; log 9). -/
def imuDefaultByte (k count : Nat) : Byte := BitVec.ofNat 8 (imuDefaultRaw k % count)

/-- IMU_DEFAULT_PAYLOAD: byte `k` is below COUNT[k] and otherwise open (42_command_encoder.md R184; log 9). -/
def imuDefaultPayload : Vector Byte 9 :=
  #v[imuDefaultByte 0 12, imuDefaultByte 1 8, imuDefaultByte 2 2, imuDefaultByte 3 4, imuDefaultByte 4 8,
     imuDefaultByte 5 3, imuDefaultByte 6 2, imuDefaultByte 7 2, imuDefaultByte 8 5]

/-- BAUD, owned by the transport and used by no rule (00_scope.md R8; log 21). -/
def baud : Nat := 115200

/-- T_READ, the read window length in an unknown unit, used by no rule (00_scope.md R8, D3; log 21). -/
opaque tRead : Nat

/-- The twelve sample rates of TMRC indices 1..12 the source does not give, in mHz (00_scope.md R8; log 21). -/
opaque tmrcMiddleMilliHz : Fin 14 → Nat

/-- TMRC_HZ in mHz: only indices 0 (600 Hz) and 13 (0.075 Hz) are stated; used by no rule (00_scope.md R8; log 21). -/
def tmrcMilliHz (k : Fin 14) : Nat :=
  if k.val = 0 then 600000 else if k.val = 13 then 75 else tmrcMiddleMilliHz k

/-- Free value: the byte an unwritten field of the status view shows after `events` events, at byte position `pos`
(0 for FLAG, 1 + k for ECHO_BUF[k]; 10_state.md R44, R46; log 5). -/
opaque unspecifiedByte : (events pos : Nat) → Byte

/-- Free value: what a 64-bit count of the status view shows once its register has left the 64-bit range, after
`events` events, for the status number `no` (93_implementation_defined.md I24; log 6). -/
opaque unspecifiedCount : (events no : Nat) → BitVec 64

end Config

end Sys2Proof
end

