-- ==== Sys2Proof/Machine/Operands.lean ====
section
/-! DEFINITION. The operand forms of both streams: the checksum and codec functions of 40_checksum_codec.md, and the
operand checks and the sensor-enable mask of 42_command_encoder.md. All are combinational. -/

namespace Sys2Proof.Machine

/-- BE(F[i..j]), the unsigned big-endian integer of the bytes (40_checksum_codec.md R122). -/
def beNat (bs : List Byte) : Nat := bs.foldl (fun acc b => acc * 256 + b.toNat) 0

/-- The `n` bytes of `p` from index `i` on: `p[i .. i+n-1]` (00_scope.md R10). -/
def slice (p : List Byte) (i n : Nat) : List Byte := (p.drop i).take n

/-- A `w`-bit field assembled from `n` bytes at `i` (20_memory.md R63, R64). -/
def beField (w : Nat) (p : List Byte) (i n : Nat) : BitVec w := BitVec.ofNat w (beNat (slice p i n))

/-- bytesBE(v, n), the n-byte big-endian encoding (40_checksum_codec.md R128). -/
def bytesBE (v n : Nat) : List Byte := (List.range n).map fun k => BitVec.ofNat 8 (v >>> (8 * (n - 1 - k)))

/-- tc(v, n), the twos-complement decode of the n-bit unsigned `v` (40_checksum_codec.md R120). -/
def tc (v n : Nat) : Int := if v.testBit (n - 1) then (v : Int) - 2 ^ n else (v : Int)

/-- The unsigned sum of the bytes, without reduction. -/
def byteSum (bs : List Byte) : Nat := (bs.map BitVec.toNat).sum

/-- cks_calc(p, N) for the N bytes `p`: the sum of the bytes before the checksum field (40_checksum_codec.md R123). -/
def cksCalc (p : List Byte) : Nat := byteSum (p.take (p.length - Config.cksumLen))

/-- cks_wire(p, N): the checksum field's value (40_checksum_codec.md R123). -/
def cksWire (p : List Byte) : Nat := beNat (p.drop (p.length - Config.cksumLen))

/-- verifyChecksum(p, N): the unreduced comparison (40_checksum_codec.md R124, 90_conflicts.md C6). -/
def verifyChecksum (p : List Byte) : Bool := cksCalc p == cksWire p

/-- The lowest IMU field `k` with f[k] ≥ COUNT[k], if there is one (42_command_encoder.md R183). -/
def imuBadField (f : Vector Byte 9) : Option (Fin 9) :=
  (List.finRange 9).find? fun k => decide (Config.imuFieldCount[k] ≤ f[k].toNat)

/-- cc ∈ CC_VALID, for the parameter CC_VALID the machine is instantiated with (00_scope.md R8, D15; log 10). -/
def ccValid (p : Params) (cc : BitVec 16) : Bool := !p.ccExcluded.contains cc

/-- The rate byte of CONT: 1 in averaged mode, the operand otherwise (42_command_encoder.md R188). -/
def rateEnc (avg : Bool) (rate : Byte) : Byte := if avg then 1 else rate

/-- ExpectedCount: duration in seconds times the encoded rate (43_acquisition_sequencer.md R232). -/
def expectedCount (avg : Bool) (rate : Byte) (dur : BitVec 48) : Nat := dur.toNat * (rateEnc avg rate).toNat

/-- The mask a host computes from the explicitly disabled magnetometers, `i : Fin 4` standing for magnetometer i + 1
(42_command_encoder.md R194). -/
def enableMask (disabled : List (Fin 4)) : BitVec 4 :=
  disabled.foldl (fun m i => m &&& ~~~(1#4 <<< i.val)) Config.maskDefault

end Sys2Proof.Machine
end

