-- ==== Sys2Proof/Syntax.lean ====
section
/-! DEFINITION. The instruction set (00_scope.md R2): one constructor per row of opcode_table.json, commands first,
then packet flags. Command requests as the command port types them (42_command_encoder.md R180). -/

namespace Sys2Proof

/-- The instructions. A command carries the operands of its request (42_command_encoder.md R180), a frame the payload
bytes after its flag (30_encoding.md R85). -/
inductive Instr where
  /-- SETMAG, opcode 1, Custom mode (42_command_encoder.md R181). -/
  | setmag (cc : BitVec 16) (tmrc : Byte)
  /-- SETMAG, opcode 1, Default mode (42_command_encoder.md R182). -/
  | setmagDefault
  /-- SETIMU, opcode 2, Custom mode (42_command_encoder.md R183). -/
  | setimu (f : Vector Byte 9)
  /-- SETIMU, opcode 2, Default mode (42_command_encoder.md R184). -/
  | setimuDefault
  /-- GETMAG, opcode 3 (42_command_encoder.md R185). -/
  | getmag
  /-- GETIMU, opcode 4 (42_command_encoder.md R186). -/
  | getimu
  /-- SINGLE, opcode 5, with the sensor-enable mask (42_command_encoder.md R187). -/
  | single (en : BitVec 4)
  /-- CONT, opcode 6: mask, averaged or raw, rate in Hz, duration in seconds (42_command_encoder.md R188). -/
  | cont (en : BitVec 4) (avg : Bool) (rate : Byte) (dur : BitVec 48)
  /-- SENDAVAIL, opcode 7 (42_command_encoder.md R189). -/
  | sendavail
  /-- STOPALL, opcode 8 (42_command_encoder.md R190). -/
  | stopall
  /-- F_CMPL, flag 0x0A, Complete (41_frame_decoder.md R143). -/
  | fCmpl
  /-- F_DEBUG, flag 0x01, Debug (41_frame_decoder.md R144). -/
  | fDebug (p : Vector Byte 18)
  /-- F_MECHO, flag 0x02, MagConfigEcho (41_frame_decoder.md R145). -/
  | fMecho (p : Vector Byte 3)
  /-- F_IECHO, flag 0x03, ImuConfigEcho (41_frame_decoder.md R146). -/
  | fIecho (p : Vector Byte 9)
  /-- F_MAG, flag 0x04, MagOnly (41_frame_decoder.md R147). -/
  | fMag (p : Vector Byte 44)
  /-- F_ALL, flag 0x05, AllSensors (41_frame_decoder.md R148). -/
  | fAll (p : Vector Byte 58)
  /-- F_MAGT, flag 0x06, MagAndTemp (41_frame_decoder.md R149). -/
  | fMagt (p : Vector Byte 46)
  /-- F_MAGI, flag 0x07, MagAndImu (41_frame_decoder.md R150). -/
  | fMagi (p : Vector Byte 56)
  /-- F_UNREC, any flag byte that names no frame (41_frame_decoder.md R151). -/
  | fUnrec (f : Byte)
  deriving DecidableEq, Repr

/-- The operands of a SETMAG request (42_command_encoder.md R180). -/
inductive MagMode where
  | default
  | custom (cc : BitVec 16) (tmrc : Byte)
  deriving DecidableEq, Repr

/-- The operands of a SETIMU request (42_command_encoder.md R180). -/
inductive ImuMode where
  | default
  | custom (f : Vector Byte 9)
  deriving DecidableEq, Repr

/-- An 8-bit opcode outside 1..8 (42_command_encoder.md R192). -/
structure UnknownOp where
  op : Byte
  outside : op = 0#8 ∨ 8#8 < op
  deriving DecidableEq, Repr

/-- CmdRequest(op, args): `op` is 8 bits and `args` is typed per opcode, so that a value that does not fit cannot be
presented (42_command_encoder.md R180). -/
inductive Request where
  | setmag (mode : MagMode)
  | setimu (mode : ImuMode)
  | getmag
  | getimu
  | single (en : BitVec 4)
  | cont (en : BitVec 4) (avg : Bool) (rate : Byte) (dur : BitVec 48)
  | sendavail
  | stopall
  | unknown (op : UnknownOp)
  deriving DecidableEq, Repr

end Sys2Proof
end

