-- ==== Sys2Proof/WellFormed.lean ====
section
/-! DEFINITION. Which instructions have an encoding of their own: the legal field values of 30_encoding.md R83, and the
flag bytes that name no frame of 30_encoding.md R96. An instruction that fails a check is still executed: a request with
an illegal index is refused by the command port (42_command_encoder.md R193). -/

namespace Sys2Proof

/-- The flag bytes that name a frame (30_encoding.md R85). -/
def knownFlags : List Byte := [0x01#8, 0x02#8, 0x03#8, 0x04#8, 0x05#8, 0x06#8, 0x07#8, 0x0A#8]

/-- The legal operands: TMRC 0..13, IMU field k below COUNT[k], rate 1 in averaged mode (the rate byte is encoded as 1
there, 42_command_encoder.md R188), and an unrecognised flag that names no frame (41_frame_decoder.md R151). -/
def Instr.wellFormed : Instr → Bool
  | .setmag _ tmrc => decide (tmrc.toNat < Config.tmrcCount)
  | .setimu f => decide (∀ k : Fin 9, f[k].toNat < Config.imuFieldCount[k])
  | .cont _ avg rate _ => decide (avg = true → rate = 1#8)
  | .fUnrec f => decide (f ∉ knownFlags)
  | .setmagDefault | .setimuDefault | .getmag | .getimu | .single _ | .sendavail | .stopall => true
  | .fCmpl | .fDebug _ | .fMecho _ | .fIecho _ | .fMag _ | .fAll _ | .fMagt _ | .fMagi _ => true

/-- The two command forms whose frame a decoder cannot tell from a Custom one (opcode_table.json, SETMAG_default and
SETIMU_default). -/
def Instr.isDefaultForm : Instr → Bool
  | .setmagDefault | .setimuDefault => true
  | .setmag _ _ | .setimu _ | .getmag | .getimu | .single _ | .cont _ _ _ _ | .sendavail | .stopall => false
  | .fCmpl | .fDebug _ | .fMecho _ | .fIecho _ | .fMag _ | .fAll _ | .fMagt _ | .fMagi _ | .fUnrec _ => false

/-- The commands: the outbound half of the instruction set (00_scope.md R2). -/
def Instr.isCommand : Instr → Bool
  | .setmag _ _ | .setmagDefault | .setimu _ | .setimuDefault | .getmag | .getimu | .single _ | .cont _ _ _ _
  | .sendavail | .stopall => true
  | .fCmpl | .fDebug _ | .fMecho _ | .fIecho _ | .fMag _ | .fAll _ | .fMagt _ | .fMagi _ | .fUnrec _ => false

end Sys2Proof
end

