-- ==== Sys2Proof/Decode.lean ====
section
/-! DEFINITION. Decoding bytes into instructions and encoding instructions into bytes, from the tables of 30_encoding.md.
Outbound frames and inbound frames are numbered independently (00_scope.md R2), so there are two decoders. Both are
total; bytes the tables give no meaning are rejected by name. -/

namespace Sys2Proof

open Machine (beNat slice beField bytesBE imuBadField)

/-- Why bytes are no instruction. -/
inductive DecodeError where
  /-- No byte at all, or fewer bytes than the first one asks for (30_encoding.md R95). -/
  | tooShort
  /-- An opcode byte outside 1..8 (30_encoding.md R97). -/
  | unknownOpcode (op : Byte)
  /-- A byte the format fixes at 0x00 is not zero (30_encoding.md R81, R97). -/
  | reservedNonzero
  /-- A field index that is not legal, with its field id (30_encoding.md R97, 42_command_encoder.md R180). -/
  | fieldIndex (field : Byte)
  /-- A mask byte with bits 7..4 not zero (30_encoding.md R97). -/
  | maskBits
  /-- An average byte other than 0x00 and 0x01 (30_encoding.md R97). -/
  | averageByte
  /-- Averaged mode with a rate byte other than 0x01, which the encoder never produces (42_command_encoder.md R188). -/
  | averagedRate
  deriving DecidableEq, Repr

/-- What a decoder answers: the instruction with the bytes after it, or the reason there is none. -/
inductive Decoded where
  | ok (i : Instr) (rest : List Byte)
  | bad (e : DecodeError)
  deriving DecidableEq, Repr

/-- PAYLOAD_LEN, the number of bytes after the flag byte; 0 for a byte that names no frame (30_encoding.md R85, R95). -/
def payloadLen (f : Byte) : Nat :=
  if f = 0x01#8 then 18 else if f = 0x02#8 then 3 else if f = 0x03#8 then 9 else if f = 0x04#8 then 44
  else if f = 0x05#8 then 58 else if f = 0x06#8 then 46 else if f = 0x07#8 then 56 else 0

/-- ck(FLAG): whether the frame carries a checksum (30_encoding.md R85, 40_checksum_codec.md R130). -/
def checksummed (f : Byte) : Bool :=
  f == 0x01#8 || f == 0x04#8 || f == 0x05#8 || f == 0x06#8 || f == 0x07#8

/-- The first `n` bytes as a vector, with the bytes after them; none when there are fewer. -/
def takeVec (n : Nat) (bs : List Byte) : Option (Vector Byte n × List Byte) :=
  if h : n ≤ bs.length then some (⟨(bs.take n).toArray, by simp [h]⟩, bs.drop n) else none

/-- Reads a payload of `n` bytes into the instruction `mk` makes of it. -/
def withPayload (n : Nat) (mk : Vector Byte n → Instr) (bs : List Byte) : Decoded :=
  match takeVec n bs with
  | some (p, rest) => .ok (mk p) rest
  | none => .bad .tooShort

/-- Decodes an inbound frame: its first byte alone decides the length (30_encoding.md R95), and every first byte decodes,
one that names no frame to F_UNREC (30_encoding.md R96). -/
def decodeFrame : List Byte → Decoded
  | [] => .bad .tooShort
  | f :: bs =>
    if f = 0x0A#8 then .ok .fCmpl bs
    else if f = 0x01#8 then withPayload 18 .fDebug bs
    else if f = 0x02#8 then withPayload 3 .fMecho bs
    else if f = 0x03#8 then withPayload 9 .fIecho bs
    else if f = 0x04#8 then withPayload 44 .fMag bs
    else if f = 0x05#8 then withPayload 58 .fAll bs
    else if f = 0x06#8 then withPayload 46 .fMagt bs
    else if f = 0x07#8 then withPayload 56 .fMagi bs
    else .ok (.fUnrec f) bs

/-- Whether every byte is 0x00. -/
def allZero (bs : List Byte) : Bool := bs.all (· == 0#8)

/-- An opcode whose nine payload bytes are all zero (CF_NOARG, 30_encoding.md R82). -/
def decodeNoArg (i : Instr) (p : Vector Byte 9) (rest : List Byte) : Decoded :=
  if allZero p.toList then .ok i rest else .bad .reservedNonzero

/-- CF_MAGCFG (30_encoding.md R82). -/
def decodeMagCfg (p : Vector Byte 9) (rest : List Byte) : Decoded :=
  if allZero (slice p.toList 3 6) then
    if p[2].toNat < Config.tmrcCount then .ok (.setmag (beField 16 p.toList 0 2) p[2]) rest else .bad (.fieldIndex 1)
  else .bad .reservedNonzero

/-- CF_IMUCFG (30_encoding.md R82). -/
def decodeImuCfg (p : Vector Byte 9) (rest : List Byte) : Decoded :=
  match imuBadField p with
  | some k => .bad (.fieldIndex (BitVec.ofNat 8 (16 + k.val)))
  | none => .ok (.setimu p) rest

/-- CF_SINGLE (30_encoding.md R82). -/
def decodeSingle (p : Vector Byte 9) (rest : List Byte) : Decoded :=
  if allZero (slice p.toList 1 8) then
    if p[0].toNat < 16 then .ok (.single (p[0].setWidth 4)) rest else .bad .maskBits
  else .bad .reservedNonzero

/-- CF_CONT (30_encoding.md R82). -/
def decodeCont (p : Vector Byte 9) (rest : List Byte) : Decoded :=
  if 16 ≤ p[0].toNat then .bad .maskBits
  else if 2 ≤ p[1].toNat then .bad .averageByte
  else if p[1] = 1#8 ∧ p[2] ≠ 1#8 then .bad .averagedRate
  else .ok (.cont (p[0].setWidth 4) (p[1] == 1#8) p[2] (beField 48 p.toList 3 6)) rest

/-- The format the opcode selects (30_encoding.md R82). -/
def decodeOpcode (op : Byte) (p : Vector Byte 9) (rest : List Byte) : Decoded :=
  if op = 1#8 then decodeMagCfg p rest
  else if op = 2#8 then decodeImuCfg p rest
  else if op = 3#8 then decodeNoArg .getmag p rest
  else if op = 4#8 then decodeNoArg .getimu p rest
  else if op = 5#8 then decodeSingle p rest
  else if op = 6#8 then decodeCont p rest
  else if op = 7#8 then decodeNoArg .sendavail p rest
  else if op = 8#8 then decodeNoArg .stopall p rest
  else .bad (.unknownOpcode op)

/-- Decodes an outbound command frame, always 10 bytes (30_encoding.md R81, R95). The Default forms of SETMAG and SETIMU
have the Custom forms' words and decode to those (log 13). -/
def decodeCommand : List Byte → Decoded
  | [] => .bad .tooShort
  | op :: bs =>
    match takeVec 9 bs with
    | some (p, rest) => decodeOpcode op p rest
    | none => .bad .tooShort

/-- The bytes of an instruction: a command's 10-byte frame (30_encoding.md R82, R83), or a frame's flag and payload
(30_encoding.md R85). -/
def encode : Instr → List Byte
  | .setmag cc tmrc => 0x01#8 :: (bytesBE cc.toNat 2 ++ tmrc :: List.replicate 6 0#8)
  | .setmagDefault => 0x01#8 :: Config.magDefaultPayload.toList
  | .setimu f => 0x02#8 :: f.toList
  | .setimuDefault => 0x02#8 :: Config.imuDefaultPayload.toList
  | .getmag => 0x03#8 :: List.replicate 9 0#8
  | .getimu => 0x04#8 :: List.replicate 9 0#8
  | .single en => 0x05#8 :: en.setWidth 8 :: List.replicate 8 0#8
  | .cont en avg rate dur =>
      0x06#8 :: en.setWidth 8 :: (if avg then 0x01#8 else 0x00#8) :: (if avg then 0x01#8 else rate) :: bytesBE dur.toNat 6
  | .sendavail => 0x07#8 :: List.replicate 9 0#8
  | .stopall => 0x08#8 :: List.replicate 9 0#8
  | .fCmpl => [0x0A#8]
  | .fDebug p => 0x01#8 :: p.toList
  | .fMecho p => 0x02#8 :: p.toList
  | .fIecho p => 0x03#8 :: p.toList
  | .fMag p => 0x04#8 :: p.toList
  | .fAll p => 0x05#8 :: p.toList
  | .fMagt p => 0x06#8 :: p.toList
  | .fMagi p => 0x07#8 :: p.toList
  | .fUnrec f => [f]

/-- The decoder of an instruction's own half of the set: command words or frame words (00_scope.md R2). -/
def decodeFor (i : Instr) (bs : List Byte) : Decoded := if i.isCommand then decodeCommand bs else decodeFrame bs

/-- The instruction a command request is; none for an opcode outside 1..8 (42_command_encoder.md R180, R192). -/
def Request.instr : Request → Option Instr
  | .setmag .default => some .setmagDefault
  | .setmag (.custom cc tmrc) => some (.setmag cc tmrc)
  | .setimu .default => some .setimuDefault
  | .setimu (.custom f) => some (.setimu f)
  | .getmag => some .getmag
  | .getimu => some .getimu
  | .single en => some (.single en)
  | .cont en avg rate dur => some (.cont en avg rate dur)
  | .sendavail => some .sendavail
  | .stopall => some .stopall
  | .unknown _ => none

/-- The request whose opcode and operands stand in a command frame's fields (30_encoding.md R83), for placing a command
word as a request. -/
def Request.ofFrame (op : Byte) (p : Vector Byte 9) : Request :=
  if h : op = 0#8 ∨ 8#8 < op then .unknown ⟨op, h⟩
  else if op = 1#8 then .setmag (.custom (beField 16 p.toList 0 2) p[2])
  else if op = 2#8 then .setimu (.custom p)
  else if op = 3#8 then .getmag
  else if op = 4#8 then .getimu
  else if op = 5#8 then .single (p[0].setWidth 4)
  else if op = 6#8 then .cont (p[0].setWidth 4) (p[1] == 1#8) p[2] (beField 48 p.toList 3 6)
  else if op = 7#8 then .sendavail
  else .stopall

/-- The width in bits of a command row of opcode_table.json; every inbound row has the flag byte's 8 bits. -/
def commandWordBits : Nat := 8 * Config.cmdLen

/-- `count` bytes of a word, its least significant byte first (the first byte on the wire). -/
def wordBytes : (count w : Nat) → List Byte
  | 0, _ => []
  | count + 1, w => BitVec.ofNat 8 w :: wordBytes count (w / 256)

/-- The longest frame: AllSensors, 59 bytes (30_encoding.md R85). -/
def longestFrame : Nat := 59

/-- The instruction of a table word: a word of 80 bits is a command frame, any other an inbound frame whose bits above
`nbits` are zero (log 13). -/
def decodeTableWord (nbits w : Nat) : Option Instr :=
  match if nbits = commandWordBits then decodeCommand (wordBytes Config.cmdLen (w % 2 ^ nbits))
        else decodeFrame (wordBytes longestFrame (w % 2 ^ nbits)) with
  | .ok i _ => some i
  | .bad _ => none

end Sys2Proof
end

