-- ==== Sys2Proof/Machine/State.lean ====
section
/-! DEFINITION. The architectural state of QMAG-PE (10_state.md), the values its interfaces carry, the reasons a step can
stop, and the state after reset (70_reset_and_hazards.md R300). Plain data throughout. -/

namespace Sys2Proof.Machine

/-- PST (10_state.md R23); the value 3 is unused and treated as P_IDLE (log 16). -/
inductive ParserState where
  | idle
  | flag
  | pay
  | unused3
  deriving DecidableEq, Repr

/-- SEQ_STATE (10_state.md R31). -/
inductive SeqState where
  | idle
  | configSent
  | configured
  | configFailed
  | measCmdSent
  | collecting
  | complete
  | aborted
  | cmdSent
  deriving DecidableEq, Repr

/-- SUB, the phase inside CONFIG_SENT (10_state.md R32). -/
inductive Phase where
  | tx
  | echo
  | ack
  deriving DecidableEq, Repr

/-- MODE (10_state.md R34). -/
inductive Mode where
  | none
  | single
  | cont
  | stream
  deriving DecidableEq, Repr

/-- ACK_KIND (10_state.md R41). -/
inductive AckKind where
  | none
  | complete
  | record
  | debug
  | echo
  | invalid
  deriving DecidableEq, Repr

/-- The error codes 0..7 (60_exceptions.md R271). -/
inductive ErrorCode where
  | none
  | invalidFieldIndex
  | configMismatch
  | invalidFrame
  | tooManyInvalidFrames
  | unrecognizedPacketFlag
  | busy
  | unknownOpcode
  deriving DecidableEq, Repr

/-- The reason of an Invalid result (10_state.md R29). -/
inductive InvalidReason where
  | absent
  | short
  | checksum
  | unrecognized
  deriving DecidableEq, Repr

/-- LAST_INV: none, or the reason of the most recent recorded Invalid result (10_state.md R42). -/
inductive LastInvalid where
  | none
  | reason (r : InvalidReason)
  deriving DecidableEq, Repr

/-- A decoded measurement record (10_state.md R29, 41_frame_decoder.md R158): the raw codes and their twos-complement
values; `mag[s][a]` is axis `a` of magnetometer `s + 1`. A field the record does not have holds no value. -/
structure Record where
  flag : Byte
  tsSec : BitVec 32
  tsTick : BitVec 16
  mag : Vector (Vector (BitVec 24) 3) 4
  magv : Vector (Vector Int 3) 4
  hasImu : Bool
  acc : Option (Vector (BitVec 16) 3)
  accv : Option (Vector Int 3)
  gyr : Option (Vector (BitVec 16) 3)
  gyrv : Option (Vector Int 3)
  hasTemp : Bool
  temp : Option (BitVec 16)
  cksum : BitVec 16
  deriving DecidableEq, Repr

/-- The parser result (10_state.md R29). -/
inductive Result where
  | complete
  | record (r : Record)
  | debug (d : List Byte)
  | echo (flag : Byte) (e : List Byte)
  | invalid (reason : InvalidReason) (flag : Byte)
  deriving DecidableEq, Repr

/-- The session report (43_acquisition_sequencer.md R237). -/
structure Report where
  state : SeqState
  op : Byte
  mode : Mode
  records : Nat
  invalid : Nat
  expected : Option Nat
  missing : Option Int
  cfgMatch : Option Bool
  ackKind : Option AckKind
  error : ErrorCode
  deriving DecidableEq, Repr

/-- One entry of the output log (10_state.md R47): an Emit event, a byte leaving on the outbound stream, or the answer to
a command request. -/
inductive Output where
  | record (index : Nat) (r : Record)
  | debug (d : List Byte)
  | sessionEnd (report : Report)
  | txByte (b : Byte)
  | cmdResult (code : ErrorCode) (field : Byte)
  deriving DecidableEq, Repr

/-- The interface events (00_scope.md R6), with the arrival of a device byte at the transport apart from its delivery to
the parser (41_frame_decoder.md R160; log 3). -/
inductive Event where
  /-- CmdRequest(op, args) (42_command_encoder.md R180). -/
  | cmdRequest (r : Request)
  /-- TxAccept: the transport accepts the offered byte (42_command_encoder.md R191). -/
  | txAccept
  /-- A byte of the device reaches the transport, which holds it (10_state.md R48). -/
  | devByte (b : Byte)
  /-- RxByte: the transport delivers the oldest byte it holds (00_scope.md R13). -/
  | rxByte
  /-- RxTimeout: the current read window expires (00_scope.md R13). -/
  | rxTimeout
  /-- Reset (70_reset_and_hazards.md R300). -/
  | reset
  deriving DecidableEq, Repr

/-- The registers whose reset value is none (10_state.md R46). -/
inductive UnwrittenRegister where
  | flag
  | pbuf
  | cmdBuf
  deriving DecidableEq, Repr

/-- Why the machine stops. Each is a state no run from reset reaches; each is safe, since the machine stops where the
spec gives no behaviour (log 4, log 15). -/
inductive Fault where
  /-- Raised by a rule that reads a register nothing has written (10_state.md R46, 93_implementation_defined.md I10);
  safe, and unreachable. -/
  | unwrittenRead (r : UnwrittenRegister)
  /-- Raised by the delivery of a parser result when the sequencer has no outstanding read: "no rule covers a Result
  there" (43_acquisition_sequencer.md R241); safe, and unreachable. -/
  | resultWithoutRead
  /-- Raised by a payload byte with IDX past the last byte of PBUF (10_state.md R27); safe, and unreachable. -/
  | payloadOverrun
  /-- Raised at the end of a payload whose FLAG and PLEN name no whole frame (41_frame_decoder.md R153); safe, and
  unreachable. -/
  | frameRegisters
  /-- Raised by the echo comparison when OP is outside 1..4 (43_acquisition_sequencer.md R225); safe, and unreachable. -/
  | echoOpcode
  deriving DecidableEq, Repr

/-- Why an instruction has no meaning in the model. -/
inductive Refusal where
  /-- Raised by exec's arm of an instruction the model gives no meaning yet; safe. No arm does. -/
  | notModelled (mnemonic : String)
  deriving DecidableEq, Repr

/-- The state of the engine, the streams around it and its output log. Field order is that of 10_state.md. -/
structure State where
  /-- PST (R23). -/
  pst : ParserState
  /-- FLAG, none while unwritten (R24, R46). -/
  flag : Option Byte
  /-- IDX, 0..58 (R25; log 6). -/
  idx : Nat
  /-- PLEN (R26; log 6). -/
  plen : Nat
  /-- PBUF[0..57], each byte none while unwritten (R27, R46). -/
  pbuf : Vector (Option Byte) 58
  /-- SUM (R28). -/
  sum : BitVec 16
  /-- CMD_BUF, none while unwritten (R30, R46). -/
  cmdBuf : Option (Vector Byte 10)
  /-- TX_IDX, 0..10 (R30; log 6). -/
  txIdx : Nat
  /-- SEQ_STATE (R31). -/
  seqState : SeqState
  /-- SUB (R32). -/
  sub : Phase
  /-- OP (R33). -/
  op : Byte
  /-- MODE (R34). -/
  mode : Mode
  /-- MASK (R35). -/
  mask : BitVec 4
  /-- REC_COUNT (R36, R9; log 6). -/
  recCount : Nat
  /-- INV_COUNT (R37, R9; log 6). -/
  invCount : Nat
  /-- EXPECTED (R38, R9; log 6). -/
  expected : Nat
  /-- EXP_VALID (R38). -/
  expValid : Bool
  /-- MISSING (R39, R9; log 6). -/
  missing : Int
  /-- ECHO_BUF, each byte none while unwritten (R40, R46). -/
  echoBuf : Vector (Option Byte) 9
  /-- ECHO_LEN, 0, 3 or 9 (R40; log 6). -/
  echoLen : Nat
  /-- ECHO_FLAG (R40). -/
  echoFlag : Byte
  /-- ECHO_VALID (R40). -/
  echoValid : Bool
  /-- CFG_MATCH (R41). -/
  cfgMatch : Bool
  /-- ACK_KIND (R41). -/
  ackKind : AckKind
  /-- LAST_ERROR (R42). -/
  lastError : ErrorCode
  /-- LAST_INV (R42). -/
  lastInv : LastInvalid
  /-- LAST_INV_FLAG (R42). -/
  lastInvFlag : Byte
  /-- The bytes the transport holds, oldest first (R48). -/
  rxPending : List Byte
  /-- The output log, oldest first (R47; log 17). -/
  log : List Output
  /-- The model's own: the events to come, oldest first (log 1). -/
  inputs : List Event
  /-- The model's own: how many events have been taken, for the free values of the status view (log 5). -/
  events : Nat
  /-- The OPEN parameters with a default, written by no rule (00_scope.md R8; log 8). -/
  params : Params
  deriving DecidableEq, Repr

/-- The state right after reset, with nothing pending and an empty log (70_reset_and_hazards.md R300; each register's
value is that of its rule in 10_state.md). -/
def State.reset : State where
  pst := .idle
  flag := none
  idx := 0
  plen := 0
  pbuf := Vector.replicate 58 none
  sum := 0
  cmdBuf := none
  txIdx := 10
  seqState := .idle
  sub := .tx
  op := 0
  mode := .none
  mask := 0
  recCount := 0
  invCount := 0
  expected := 0
  expValid := false
  missing := 0
  echoBuf := Vector.replicate 9 none
  echoLen := 0
  echoFlag := 0
  echoValid := false
  cfgMatch := false
  ackKind := .none
  lastError := .none
  lastInv := .none
  lastInvFlag := 0
  rxPending := []
  log := []
  inputs := []
  events := 0
  params := { ccExcluded := [], respSendAvail := .none, respStopAll := .none }

/-- The three outcomes of a step over this state. -/
abbrev Out := Host.Outcome State Fault Refusal

end Sys2Proof.Machine
end

