-- ==== Sys2Proof/Machine/Flags.lean ====
section
/-! DEFINITION. Everything derived from the registers with no storage of its own: the status flags (10_state.md R43), the
ports (10_state.md R22), the numeric encodings, and the read-only status view S0..S12 (10_state.md R44). -/

namespace Sys2Proof.Machine

/-- BUSY: a session owns the stream (10_state.md R43). -/
def State.busy (s : State) : Bool :=
  match s.seqState with
  | .configSent | .measCmdSent | .collecting | .cmdSent => true
  | .idle | .configured | .configFailed | .complete | .aborted => false

/-- READY (10_state.md R43). -/
def State.ready (s : State) : Bool := !s.busy

/-- DONE: the last session has a result (10_state.md R43). -/
def State.done (s : State) : Bool :=
  match s.seqState with
  | .configured | .configFailed | .complete | .aborted => true
  | .idle | .configSent | .measCmdSent | .collecting | .cmdSent => false

/-- CFG_OK (10_state.md R43). -/
def State.cfgOk (s : State) : Bool := s.seqState == .configured

/-- ABORT (10_state.md R43). -/
def State.abort (s : State) : Bool := s.seqState == .aborted

/-- rx_ready: PST ≠ P_IDLE, with the unused value treated as P_IDLE (41_frame_decoder.md R160, 10_state.md R23). -/
def State.rxReady (s : State) : Bool :=
  match s.pst with
  | .flag | .pay => true
  | .idle | .unused3 => false

/-- The states in which a command frame is being sent (42_command_encoder.md R191). -/
def State.sending (s : State) : Bool :=
  match s.seqState with
  | .configSent => s.sub == .tx
  | .measCmdSent | .cmdSent => true
  | .idle | .configured | .configFailed | .collecting | .complete | .aborted => false

/-- tx_valid: the serializer is active (42_command_encoder.md R191). -/
def State.txValid (s : State) : Bool := s.sending && decide (s.txIdx < 10)

/-- tx_data: CMD_BUF[TX_IDX] while the serializer is active and CMD_BUF is written (42_command_encoder.md R191). -/
def State.txData (s : State) : Option Byte :=
  if s.txValid then s.cmdBuf.bind fun buf => buf[s.txIdx]? else none

/-- The encodings of PST (10_state.md R23). -/
def ParserState.code : ParserState → BitVec 2
  | .idle => 0
  | .flag => 1
  | .pay => 2
  | .unused3 => 3

/-- The encodings of SEQ_STATE (10_state.md R31). -/
def SeqState.code : SeqState → BitVec 4
  | .idle => 0
  | .configSent => 1
  | .configured => 2
  | .configFailed => 3
  | .measCmdSent => 4
  | .collecting => 5
  | .complete => 6
  | .aborted => 7
  | .cmdSent => 8

/-- The encodings of SUB (10_state.md R32). -/
def Phase.code : Phase → BitVec 2
  | .tx => 0
  | .echo => 1
  | .ack => 2

/-- The encodings of MODE (10_state.md R34). -/
def Mode.code : Mode → BitVec 2
  | .none => 0
  | .single => 1
  | .cont => 2
  | .stream => 3

/-- The encodings of ACK_KIND (10_state.md R41). -/
def AckKind.code : AckKind → BitVec 3
  | .none => 0
  | .complete => 1
  | .record => 2
  | .debug => 3
  | .echo => 4
  | .invalid => 5

/-- The numeric error codes (60_exceptions.md R271). -/
def ErrorCode.code : ErrorCode → BitVec 8
  | .none => 0
  | .invalidFieldIndex => 1
  | .configMismatch => 2
  | .invalidFrame => 3
  | .tooManyInvalidFrames => 4
  | .unrecognizedPacketFlag => 5
  | .busy => 6
  | .unknownOpcode => 7

/-- The encodings of LAST_INV (10_state.md R42). -/
def LastInvalid.code : LastInvalid → BitVec 3
  | .none => 0
  | .reason .absent => 1
  | .reason .short => 2
  | .reason .checksum => 3
  | .reason .unrecognized => 4

/-- S0 STATE: [3:0] SEQ_STATE, [5:4] SUB, [7:6] MODE (10_state.md R44). -/
def State.viewState (s : State) : BitVec 8 := s.mode.code ++ s.sub.code ++ s.seqState.code

/-- S1 FLAGS: from bit 0, BUSY, READY, DONE, CFG_OK, ABORT, ECHO_VALID, EXP_VALID, CFG_MATCH (10_state.md R44). -/
def State.viewFlags (s : State) : BitVec 8 :=
  BitVec.ofBool s.cfgMatch ++ BitVec.ofBool s.expValid ++ BitVec.ofBool s.echoValid ++ BitVec.ofBool s.abort
    ++ BitVec.ofBool s.cfgOk ++ BitVec.ofBool s.done ++ BitVec.ofBool s.ready ++ BitVec.ofBool s.busy

/-- S3 MASK: bits 7..4 read as 0 (10_state.md R44). -/
def State.viewMask (s : State) : BitVec 8 := 0#4 ++ s.mask

/-- S5 LAST_INV: [2:0] LAST_INV, [7:3] read as 0, [15:8] LAST_INV_FLAG (10_state.md R44). -/
def State.viewLastInv (s : State) : BitVec 16 := s.lastInvFlag ++ 0#5 ++ s.lastInv.code

/-- A count as 64 bits; a value outside the register's range shows a free value (10_state.md R44,
93_implementation_defined.md I24; log 6). -/
def viewCount (events no n : Nat) : BitVec 64 :=
  if n < 2 ^ 64 then BitVec.ofNat 64 n else Config.unspecifiedCount events no

/-- S9 MISSING as a 64-bit twos-complement value; outside that range a free value (10_state.md R39, R44; log 6). -/
def State.viewMissing (s : State) : BitVec 64 :=
  if -(2 ^ 63) ≤ s.missing ∧ s.missing < 2 ^ 63 then BitVec.ofInt 64 s.missing else Config.unspecifiedCount s.events 9

/-- Byte `k` of ECHO_BUF as S10 shows it: a free value unless ECHO_VALID = 1, k < ECHO_LEN and the byte is written
(10_state.md R44, R46; log 5). -/
def State.viewEchoByte (s : State) (k : Fin 9) : Byte :=
  match s.echoBuf[k] with
  | some b => if s.echoValid ∧ k.val < s.echoLen then b else Config.unspecifiedByte s.events (1 + k.val)
  | none => Config.unspecifiedByte s.events (1 + k.val)

/-- S10 ECHO: [7:0] ECHO_FLAG, [11:8] ECHO_LEN, [15:12] read as 0, [23+8k:16+8k] ECHO_BUF[k] (10_state.md R44). -/
def State.viewEcho (s : State) : BitVec 88 :=
  s.viewEchoByte 8 ++ s.viewEchoByte 7 ++ s.viewEchoByte 6 ++ s.viewEchoByte 5 ++ s.viewEchoByte 4 ++ s.viewEchoByte 3
    ++ s.viewEchoByte 2 ++ s.viewEchoByte 1 ++ s.viewEchoByte 0 ++ 0#4 ++ BitVec.ofNat 4 s.echoLen ++ s.echoFlag

/-- S11 ACK_KIND: bits 7..3 read as 0 (10_state.md R44). -/
def State.viewAckKind (s : State) : BitVec 8 := 0#5 ++ s.ackKind.code

/-- S12 PARSER: [1:0] PST, [7:2] IDX, [15:8] FLAG, the last a free value while unwritten (10_state.md R44, R46; log 5). -/
def State.viewParser (s : State) : BitVec 16 :=
  s.flag.getD (Config.unspecifiedByte s.events 0) ++ BitVec.ofNat 6 s.idx ++ s.pst.code

/-- The status view, S0 to S12 (10_state.md R44). -/
structure StatusView where
  s0 : BitVec 8
  s1 : BitVec 8
  s2 : BitVec 8
  s3 : BitVec 8
  s4 : BitVec 8
  s5 : BitVec 16
  s6 : BitVec 64
  s7 : BitVec 8
  s8 : BitVec 64
  s9 : BitVec 64
  s10 : BitVec 88
  s11 : BitVec 8
  s12 : BitVec 16
  deriving DecidableEq, Repr

/-- What the status port shows after the last completed event (10_state.md R44, 70_reset_and_hazards.md R311). -/
def State.statusView (s : State) : StatusView where
  s0 := s.viewState
  s1 := s.viewFlags
  s2 := s.op
  s3 := s.viewMask
  s4 := s.lastError.code
  s5 := s.viewLastInv
  s6 := viewCount s.events 6 s.recCount
  s7 := BitVec.ofNat 8 s.invCount
  s8 := viewCount s.events 8 s.expected
  s9 := s.viewMissing
  s10 := s.viewEcho
  s11 := s.viewAckKind
  s12 := s.viewParser

end Sys2Proof.Machine
end

