-- ==== Sys2Proof/Machine/Ops.lean ====
section
/-! DEFINITION. The named operations over the registers and the streams: output (00_scope.md R13), error recording
(00_scope.md R12, which is no trap: 60_exceptions.md R270, R281), the parser's register writes (41_frame_decoder.md R141,
R142, R153), the transport's queue (41_frame_decoder.md R160) and Reset (70_reset_and_hazards.md R300). -/

namespace Sys2Proof.Machine

/-- Emit(o): appends to the output log (00_scope.md R13, 10_state.md R47). -/
def State.emit (s : State) (o : Output) : State := { s with log := s.log ++ [o] }

/-- raise E: records an error descriptor in LAST_ERROR; no control flow changes (00_scope.md R12, 60_exceptions.md R270). -/
def State.raiseError (s : State) (e : ErrorCode) : State := { s with lastError := e }

/-- Records the reason and flag byte of an Invalid result (10_state.md R42). -/
def State.recordInvalid (s : State) (reason : InvalidReason) (f : Byte) : State :=
  { s with lastInv := .reason reason, lastInvFlag := f }

/-- StartRead: opens the flag read window (41_frame_decoder.md R141). -/
def State.startRead (s : State) : State := { s with pst := .flag }

/-- The end of a read: PST ← P_IDLE (41_frame_decoder.md R159). -/
def State.endRead (s : State) : State := { s with pst := .idle }

/-- FLAG ← b (41_frame_decoder.md R142). -/
def State.setFlag (s : State) (b : Byte) : State := { s with flag := some b }

/-- BeginPayload(n): opens the payload read window (41_frame_decoder.md R142). -/
def State.beginPayload (s : State) (n : Nat) : State := { s with plen := n, idx := 0, sum := 0, pst := .pay }

/-- The new SUM for payload byte `b` at IDX: it is added only in a checksummed frame and before the checksum field
(40_checksum_codec.md R126, 41_frame_decoder.md R153). -/
def State.nextSum (s : State) (f b : Byte) : BitVec 16 :=
  if checksummed f ∧ s.idx + Config.cksumLen < s.plen then s.sum + b.setWidth 16 else s.sum

/-- PBUF[IDX] ← b, SUM, IDX ← IDX + 1 (41_frame_decoder.md R153). -/
def State.storePayload (s : State) (f b : Byte) (h : s.idx < 58) : State :=
  { s with pbuf := s.pbuf.set s.idx (some b), sum := s.nextSum f b, idx := s.idx + 1 }

/-- All the values of a list that holds a value everywhere; none if one is unwritten. -/
def allWritten : List (Option Byte) → Option (List Byte)
  | [] => some []
  | none :: _ => none
  | some b :: bs => (allWritten bs).map (b :: ·)

/-- PBUF[0..n-1]; none if one of the bytes is unwritten (10_state.md R27, R46). -/
def State.readPayload (s : State) (n : Nat) : Option (List Byte) := allWritten (s.pbuf.toList.take n)

/-- A device byte reaches the transport, which holds it after the bytes already there (10_state.md R48,
41_frame_decoder.md R160). -/
def State.arrive (s : State) (b : Byte) : State := { s with rxPending := s.rxPending ++ [b] }

/-- The oldest event is taken and `rest` is still to come (log 1, log 5). -/
def State.takeEvent (s : State) (rest : List Event) : State := { s with inputs := rest, events := s.events + 1 }

/-- Reset: every register takes its reset value; the transport's bytes, the output log, the events to come and the
parameters stay (70_reset_and_hazards.md R300, R301; 10_state.md R47; log 18). -/
def State.resetEngine (s : State) : State :=
  { State.reset with
    rxPending := s.rxPending, log := s.log, inputs := s.inputs, events := s.events, params := s.params }

end Sys2Proof.Machine
end

