-- ==== Sys2Proof/Machine/Sequencer.lean ====
section
/-! DEFINITION. The acquisition sequencer (43_acquisition_sequencer.md): session start and end, the two phases of a
configuration exchange, the Collecting loop, and the delivery of a parser result to whichever of them has the read
outstanding. -/

namespace Sys2Proof.Machine

/-- What SessionStart does for every opcode: OP and the session's counters and error registers
(43_acquisition_sequencer.md R222). -/
def State.clearSession (s : State) (op : Byte) : State :=
  { s with
    op := op, recCount := 0, invCount := 0, missing := 0, expValid := false, expected := 0
    lastError := .none, lastInv := .none, lastInvFlag := 0 }

/-- SessionStart for opcodes 1 to 4 (43_acquisition_sequencer.md R222). -/
def State.startConfig (s : State) : State :=
  { s with
    seqState := .configSent, sub := .tx, mode := .none, cfgMatch := false, ackKind := .none
    echoValid := false, echoLen := 0, echoFlag := 0 }

/-- SessionStart for opcode 5 (43_acquisition_sequencer.md R222). -/
def State.startSingle (s : State) (en : BitVec 4) : State :=
  { s with seqState := .measCmdSent, mode := .single, mask := en }

/-- SessionStart for opcode 6, with the expected count (43_acquisition_sequencer.md R222, R232). -/
def State.startCont (s : State) (en : BitVec 4) (expected : Nat) : State :=
  { s with seqState := .measCmdSent, mode := .cont, mask := en, expected := expected, expValid := true }

/-- StartOther's state for a response protocol (43_acquisition_sequencer.md R238). -/
def Resp.startState : Resp → SeqState
  | .collect => .measCmdSent
  | .none => .cmdSent

/-- StartOther's mode for a response protocol (43_acquisition_sequencer.md R238). -/
def Resp.startMode : Resp → Mode
  | .collect => .stream
  | .none => .none

/-- StartOther(resp), SessionStart for opcodes 7 and 8 (43_acquisition_sequencer.md R238). -/
def State.startOther (s : State) (resp : Resp) : State :=
  { s with seqState := Resp.startState resp, mode := Resp.startMode resp }

/-- Whether OP is a configuration opcode, 1 to 4 (43_acquisition_sequencer.md R222). -/
def configOp (op : Byte) : Bool := op == 1#8 || op == 2#8 || op == 3#8 || op == 4#8

/-- The report of a session that ends in `st` (43_acquisition_sequencer.md R237). -/
def State.report (s : State) (st : SeqState) : Report where
  state := st
  op := s.op
  mode := s.mode
  records := s.recCount
  invalid := s.invCount
  expected := if s.expValid then some s.expected else none
  missing := if s.expValid then some s.missing else none
  cfgMatch := if configOp s.op then some s.cfgMatch else none
  ackKind := if configOp s.op then some s.ackKind else none
  error := s.lastError

/-- MISSING ← EXPECTED − REC_COUNT, signed, when EXP_VALID = 1 (43_acquisition_sequencer.md R237). -/
def State.settleMissing (s : State) : State :=
  { s with missing := if s.expValid then (s.expected : Int) - (s.recCount : Int) else s.missing }

/-- End(st): the single place where a session ends (43_acquisition_sequencer.md R237). -/
def State.endSession (s : State) (st : SeqState) : State :=
  let t := { s with seqState := st }.settleMissing
  t.emit (.sessionEnd (t.report st))

/-- SendDone (43_acquisition_sequencer.md R223). -/
def State.sendDone (s : State) : State :=
  match s.seqState with
  | .configSent => { s with sub := .echo }.startRead
  | .measCmdSent => { s with seqState := .collecting }.startRead
  | .cmdSent => { s with seqState := .idle }
  | .idle | .configured | .configFailed | .collecting | .complete | .aborted => s

/-- The bytes of CMD_BUF an echo of `n` bytes is compared with: CMD_BUF[1..n] (43_acquisition_sequencer.md R225). -/
def sentSlice (c : Vector Byte 10) (n : Nat) : List Byte := slice c.toList 1 n

/-- Whether a result is an echo of the flag, with any bytes (43_acquisition_sequencer.md R225, opcodes 3 and 4). -/
def Result.isEchoOf (f : Byte) : Result → Bool
  | .echo g _ => g == f
  | .complete | .record _ | .debug _ | .invalid _ _ => false

/-- Whether a result is an echo of the flag with exactly the bytes sent (43_acquisition_sequencer.md R225, opcodes 1 and
2). The read of CMD_BUF comes only after the flag matches; an unwritten CMD_BUF faults (10_state.md R46). -/
def Result.matchesSent (f : Byte) (n : Nat) (cmdBuf : Option (Vector Byte 10)) : Result → Except Fault Bool
  | .echo g e =>
    if g = f then
      match cmdBuf with
      | some c => .ok (e == sentSlice c n)
      | none => .error (.unwrittenRead .cmdBuf)
    else .ok false
  | .complete | .record _ | .debug _ | .invalid _ _ => .ok false

/-- EchoOK(r) (43_acquisition_sequencer.md R225). -/
def State.echoOk (s : State) (r : Result) : Except Fault Bool :=
  if s.op = 1#8 then r.matchesSent 0x02#8 3 s.cmdBuf
  else if s.op = 2#8 then r.matchesSent 0x03#8 9 s.cmdBuf
  else if s.op = 3#8 then .ok (r.isEchoOf 0x02#8)
  else if s.op = 4#8 then .ok (r.isEchoOf 0x03#8)
  else .error .echoOpcode

/-- ECHO_BUF[0..len(e)-1] ← e; the other bytes keep what they hold (43_acquisition_sequencer.md R224). -/
def writeEcho (buf : Vector (Option Byte) 9) (e : List Byte) : Vector (Option Byte) 9 :=
  Vector.ofFn fun k => match e[k.val]? with
    | some b => some b
    | none => buf[k]

/-- What the echo phase records of its result (43_acquisition_sequencer.md R224). -/
def State.recordEcho (s : State) : Result → State
  | .echo f e => { s with echoFlag := f, echoLen := e.length, echoBuf := writeEcho s.echoBuf e, echoValid := true }
  | .invalid reason f => s.recordInvalid reason f
  | .complete | .record _ | .debug _ => s

/-- The echo phase of a configuration exchange (43_acquisition_sequencer.md R224). -/
def echoPhase (r : Result) (s : State) : Out :=
  let t := s.recordEcho r
  match t.echoOk r with
  | .ok m => .next { t with cfgMatch := m, sub := .ack }.startRead
  | .error e => .fault e

/-- kind(r) (43_acquisition_sequencer.md R226). -/
def Result.kind : Result → AckKind
  | .complete => .complete
  | .record _ => .record
  | .debug _ => .debug
  | .echo _ _ => .echo
  | .invalid _ _ => .invalid

/-- What the acknowledgment phase records of its result: its kind (43_acquisition_sequencer.md R226), and the reason and
flag byte of an Invalid one (10_state.md R42, 60_exceptions.md R274; log 14). -/
def State.recordAck (s : State) (r : Result) : State :=
  let t := { s with ackKind := r.kind }
  match r with
  | .invalid reason f => t.recordInvalid reason f
  | .complete | .record _ | .debug _ | .echo _ _ => t

/-- The acknowledgment phase: any frame is consumed, its kind kept (43_acquisition_sequencer.md R226). -/
def ackPhase (r : Result) (s : State) : State :=
  let t := { s.recordAck r with sub := .tx }
  if t.cfgMatch then t.endSession .configured else (t.raiseError .configMismatch).endSession .configFailed

/-- A data frame in Collecting (43_acquisition_sequencer.md R230). -/
def collectRecord (rec : Record) (s : State) : State :=
  let t := { s.emit (.record s.recCount rec) with recCount := s.recCount + 1 }
  if t.mode = .single then t.endSession .complete else t.startRead

/-- The error an invalid frame in Collecting records (43_acquisition_sequencer.md R231, 60_exceptions.md R276). -/
def InvalidReason.error : InvalidReason → ErrorCode
  | .unrecognized => .unrecognizedPacketFlag
  | .absent | .short | .checksum => .invalidFrame

/-- An invalid frame in Collecting (43_acquisition_sequencer.md R231). -/
def collectInvalid (reason : InvalidReason) (f : Byte) (s : State) : State :=
  let t := ({ s with invCount := s.invCount + 1 }.recordInvalid reason f).raiseError (InvalidReason.error reason)
  if Config.invalidLimit < t.invCount then (t.raiseError .tooManyInvalidFrames).endSession .aborted else t.startRead

/-- A Debug frame in Collecting (43_acquisition_sequencer.md R236). -/
def collectDebug (d : List Byte) (s : State) : State := (s.emit (.debug d)).startRead

/-- The Collecting loop (43_acquisition_sequencer.md R229, R233, R236). -/
def collect (r : Result) (s : State) : State :=
  match r with
  | .record rec => collectRecord rec s
  | .invalid reason f => collectInvalid reason f s
  | .complete => s.endSession .complete
  | .debug d => collectDebug d s
  | .echo _ _ => s.startRead

/-- Hands a result to the sequencer, in the event that completes the read (41_frame_decoder.md R159). It reaches the
sequencer only while a read is outstanding; no rule covers it elsewhere (43_acquisition_sequencer.md R241). -/
def deliver (r : Result) (s : State) : Out :=
  match s.seqState with
  | .collecting => .next (collect r s)
  | .configSent =>
    match s.sub with
    | .echo => echoPhase r s
    | .ack => .next (ackPhase r s)
    | .tx => .fault .resultWithoutRead
  | .idle | .configured | .configFailed | .measCmdSent | .complete | .aborted | .cmdSent => .fault .resultWithoutRead

end Sys2Proof.Machine
end

