-- ==== Sys2Proof/Machine/Commands.lean ====
section
/-! DEFINITION. The meanings of the ten command rows: the command port (42_command_encoder.md R180), one definition per
opcode and mode (R181 to R190), and Accept (R196). -/

namespace Sys2Proof.Machine

/-- CmdResult(code, field), answered in the event of the request (42_command_encoder.md R180). -/
def State.answer (s : State) (code : ErrorCode) (field : Byte) : State := s.emit (.cmdResult code field)

/-- Accept without the opcode's own part of SessionStart: CMD_BUF ← frame, TX_IDX ← 0, and the registers every session
start clears (42_command_encoder.md R196, 43_acquisition_sequencer.md R222). -/
def State.accept (s : State) (op : Byte) (frame : Vector Byte 10) : State :=
  { s with cmdBuf := some frame, txIdx := 0 }.clearSession op

/-- The command port's procedure for an opcode in 1..8 (42_command_encoder.md R180, 60_exceptions.md R278): Busy first,
then the failing field if there is one, else acceptance with what `start` does. -/
def commandPort (op : Byte) (badField : Option Byte) (frame : Vector Byte 10) (start : State → State) (s : State) : Out :=
  if s.busy then .next (s.answer .busy 0)
  else match badField with
    | some field => .next (s.answer .invalidFieldIndex field)
    | none => .next ((start (s.accept op frame)).answer .none 0)

/-- The 10-byte frame of an opcode and its payload bytes, zero-padded where unused (30_encoding.md R81). -/
def mkFrame (op : Byte) (payload : List Byte) : Vector Byte 10 :=
  Vector.ofFn fun k => (op :: payload).getD k.val 0x00#8

/-- The field id a SETMAG Custom request fails with, TMRC checked before the cycle count (42_command_encoder.md R181). -/
def magBadField (p : Params) (cc : BitVec 16) (tmrc : Byte) : Option Byte :=
  if 13 < tmrc.toNat then some 1 else if ccValid p cc then none else some 2

/-- The field id a SETIMU Custom request fails with: 16 + k for the lowest illegal field (42_command_encoder.md R183). -/
def imuBadFieldId (f : Vector Byte 9) : Option Byte := (imuBadField f).map fun k => BitVec.ofNat 8 (16 + k.val)

/-- SETMAG, Custom mode (42_command_encoder.md R181). -/
def execSetmag (cc : BitVec 16) (tmrc : Byte) (s : State) : Out :=
  commandPort 0x01#8 (magBadField s.params cc tmrc) (mkFrame 0x01#8 (bytesBE cc.toNat 2 ++ [tmrc])) State.startConfig s

/-- SETMAG, Default mode (42_command_encoder.md R182). -/
def execSetmagDefault (s : State) : Out :=
  commandPort 0x01#8 none (mkFrame 0x01#8 Config.magDefaultPayload.toList) State.startConfig s

/-- SETIMU, Custom mode (42_command_encoder.md R183). -/
def execSetimu (f : Vector Byte 9) (s : State) : Out :=
  commandPort 0x02#8 (imuBadFieldId f) (mkFrame 0x02#8 f.toList) State.startConfig s

/-- SETIMU, Default mode (42_command_encoder.md R184). -/
def execSetimuDefault (s : State) : Out :=
  commandPort 0x02#8 none (mkFrame 0x02#8 Config.imuDefaultPayload.toList) State.startConfig s

/-- GETMAG (42_command_encoder.md R185). -/
def execGetmag (s : State) : Out := commandPort 0x03#8 none (mkFrame 0x03#8 []) State.startConfig s

/-- GETIMU (42_command_encoder.md R186). -/
def execGetimu (s : State) : Out := commandPort 0x04#8 none (mkFrame 0x04#8 []) State.startConfig s

/-- SINGLE (42_command_encoder.md R187). -/
def execSingle (en : BitVec 4) (s : State) : Out :=
  commandPort 0x05#8 none (mkFrame 0x05#8 [en.setWidth 8]) (fun t => t.startSingle en) s

/-- CONT (42_command_encoder.md R188). -/
def execCont (en : BitVec 4) (avg : Bool) (rate : Byte) (dur : BitVec 48) (s : State) : Out :=
  commandPort 0x06#8 none
    (mkFrame 0x06#8 ([en.setWidth 8, (BitVec.ofBool avg).setWidth 8, rateEnc avg rate] ++ bytesBE dur.toNat 6))
    (fun t => t.startCont en (expectedCount avg rate dur)) s

/-- SENDAVAIL (42_command_encoder.md R189). -/
def execSendavail (s : State) : Out :=
  commandPort 0x07#8 none (mkFrame 0x07#8 []) (fun t => t.startOther t.params.respSendAvail) s

/-- STOPALL (42_command_encoder.md R190). -/
def execStopall (s : State) : Out :=
  commandPort 0x08#8 none (mkFrame 0x08#8 []) (fun t => t.startOther t.params.respStopAll) s

end Sys2Proof.Machine
end

