-- ==== Sys2Proof/Machine/Parser.lean ====
section
/-! DEFINITION. What the frame parser makes of a whole payload: the record decode (41_frame_decoder.md R158) and the
results of checksummed and echo frames (41_frame_decoder.md R154, R155, R157). -/

namespace Sys2Proof.Machine

/-- has_imu: flags 0x05 and 0x07 (41_frame_decoder.md R158). -/
def hasImu (f : Byte) : Bool := f == 0x05#8 || f == 0x07#8

/-- has_temp: flags 0x05 and 0x06 (41_frame_decoder.md R158). -/
def hasTemp (f : Byte) : Bool := f == 0x05#8 || f == 0x06#8

/-- mag[s][a] = BE(p[6+9s+3a .. 8+9s+3a]) (30_encoding.md R86). -/
def magRaw (p : List Byte) (s a : Nat) : BitVec 24 := beField 24 p (6 + 9 * s + 3 * a) 3

/-- acc[a] = BE(p[42+2a .. 43+2a]) (30_encoding.md R89, R90). -/
def accRaw (p : List Byte) (a : Nat) : BitVec 16 := beField 16 p (42 + 2 * a) 2

/-- gyr[a] = BE(p[48+2a .. 49+2a]) (30_encoding.md R89, R90). -/
def gyrRaw (p : List Byte) (a : Nat) : BitVec 16 := beField 16 p (48 + 2 * a) 2

/-- Where temp stands: p[54] in AllSensors, p[42] in MagAndTemp (30_encoding.md R88, R90). -/
def tempOffset (f : Byte) : Nat := if f = 0x05#8 then 54 else 42

/-- Three axes x, y, z. -/
def axes {α : Type} (g : Nat → α) : Vector α 3 := #v[g 0, g 1, g 2]

/-- Four magnetometers of three axes. -/
def magAxes {α : Type} (g : Nat → Nat → α) : Vector (Vector α 3) 4 := #v[axes (g 0), axes (g 1), axes (g 2), axes (g 3)]

/-- decodeRecord(f, p) (41_frame_decoder.md R158). -/
def decodeRecord (f : Byte) (p : List Byte) : Record where
  flag := f
  tsSec := beField 32 p 0 4
  tsTick := beField 16 p 4 2
  mag := magAxes (magRaw p)
  magv := magAxes fun s a => tc (magRaw p s a).toNat 24
  hasImu := hasImu f
  acc := if hasImu f then some (axes (accRaw p)) else none
  accv := if hasImu f then some (axes fun a => tc (accRaw p a).toNat 16) else none
  gyr := if hasImu f then some (axes (gyrRaw p)) else none
  gyrv := if hasImu f then some (axes fun a => tc (gyrRaw p a).toNat 16) else none
  hasTemp := hasTemp f
  temp := if hasTemp f then some (beField 16 p (tempOffset f) 2) else none
  cksum := beField 16 p (payloadLen f - Config.cksumLen) 2

/-- FinishChecksummed: the result of a whole checksummed payload, SUM against the checksum field
(41_frame_decoder.md R154, R157). -/
def finishChecksummed (f : Byte) (p : List Byte) (sum : BitVec 16) : Result :=
  if sum = beField 16 p (payloadLen f - Config.cksumLen) 2 then
    if f = 0x01#8 then .debug (slice p 0 16) else .record (decodeRecord f p)
  else .invalid .checksum f

end Sys2Proof.Machine
end

