-- ==== Sys2Proof/Machine/Frames.lean ====
section
/-! DEFINITION. The meanings of the nine frame rows: what the event that completes the frame's read does, once the flag and
the payload stand in the parser's registers (41_frame_decoder.md R143 to R151). The read ends (PST ← P_IDLE) and the
result goes to the sequencer in the same event (41_frame_decoder.md R159; log 11). -/

namespace Sys2Proof.Machine

/-- The end of a read with result `r` (41_frame_decoder.md R159). -/
def finishRead (r : Result) (s : State) : Out := deliver r s.endRead

/-- F_CMPL (41_frame_decoder.md R143). -/
def execFCmpl (s : State) : Out := finishRead .complete s

/-- F_DEBUG (41_frame_decoder.md R144). -/
def execFDebug (p : Vector Byte 18) (s : State) : Out := finishRead (finishChecksummed 0x01#8 p.toList s.sum) s

/-- F_MECHO (41_frame_decoder.md R145). -/
def execFMecho (p : Vector Byte 3) (s : State) : Out := finishRead (.echo 0x02#8 p.toList) s

/-- F_IECHO (41_frame_decoder.md R146). -/
def execFIecho (p : Vector Byte 9) (s : State) : Out := finishRead (.echo 0x03#8 p.toList) s

/-- F_MAG (41_frame_decoder.md R147). -/
def execFMag (p : Vector Byte 44) (s : State) : Out := finishRead (finishChecksummed 0x04#8 p.toList s.sum) s

/-- F_ALL (41_frame_decoder.md R148). -/
def execFAll (p : Vector Byte 58) (s : State) : Out := finishRead (finishChecksummed 0x05#8 p.toList s.sum) s

/-- F_MAGT (41_frame_decoder.md R149). -/
def execFMagt (p : Vector Byte 46) (s : State) : Out := finishRead (finishChecksummed 0x06#8 p.toList s.sum) s

/-- F_MAGI (41_frame_decoder.md R150). -/
def execFMagi (p : Vector Byte 56) (s : State) : Out := finishRead (finishChecksummed 0x07#8 p.toList s.sum) s

/-- F_UNREC (41_frame_decoder.md R151). -/
def execFUnrec (f : Byte) (s : State) : Out := finishRead (.invalid .unrecognized f) s

end Sys2Proof.Machine
end

