-- ==== Sys2Proof/Machine/Dispatch.lean ====
section
/-! DEFINITION. The dispatch: one arm per constructor of Instr. -/

namespace Sys2Proof.Machine

/-- The meaning of each instruction. -/
def exec (i : Instr) (s : State) : Host.Outcome State Fault Refusal :=
  match i with
  | .setmag cc tmrc => Sys2Proof.Machine.execSetmag cc tmrc s
  | .setmagDefault => Sys2Proof.Machine.execSetmagDefault s
  | .setimu f => Sys2Proof.Machine.execSetimu f s
  | .setimuDefault => Sys2Proof.Machine.execSetimuDefault s
  | .getmag => Sys2Proof.Machine.execGetmag s
  | .getimu => Sys2Proof.Machine.execGetimu s
  | .single en => Sys2Proof.Machine.execSingle en s
  | .cont en avg rate dur => Sys2Proof.Machine.execCont en avg rate dur s
  | .sendavail => Sys2Proof.Machine.execSendavail s
  | .stopall => Sys2Proof.Machine.execStopall s
  | .fCmpl => Sys2Proof.Machine.execFCmpl s
  | .fDebug p => Sys2Proof.Machine.execFDebug p s
  | .fMecho p => Sys2Proof.Machine.execFMecho p s
  | .fIecho p => Sys2Proof.Machine.execFIecho p s
  | .fMag p => Sys2Proof.Machine.execFMag p s
  | .fAll p => Sys2Proof.Machine.execFAll p s
  | .fMagt p => Sys2Proof.Machine.execFMagt p s
  | .fMagi p => Sys2Proof.Machine.execFMagi p s
  | .fUnrec f => Sys2Proof.Machine.execFUnrec f s

end Sys2Proof.Machine
end

