-- ==== Sys2Proof/Machine/Events.lean ====
section
/-! DEFINITION. The events (00_scope.md R6): each is handled atomically, by the command port, the serializer, the parser or
Reset. A frame's bytes are its fetch; the byte that completes it executes it (log 11). Placing a table word for the next
step is here too. -/

namespace Sys2Proof.Machine

/-- CmdRequest: an opcode in 1..8 executes its instruction; any other is refused, Busy before UnknownOpcode
(42_command_encoder.md R180, R192; 60_exceptions.md R278). -/
def onRequest (r : Request) (s : State) : Out :=
  match r.instr with
  | some i => exec i s
  | none => if s.busy then .next (s.answer .busy 0) else .next (s.answer .unknownOpcode 0)

/-- The byte CMD_BUF[TX_IDX] leaves on the outbound stream (42_command_encoder.md R191). -/
def State.sendByte (s : State) (b : Byte) : State := { s.emit (.txByte b) with txIdx := s.txIdx + 1 }

/-- TxAccept (42_command_encoder.md R191): enabled while the serializer is active; otherwise nothing is offered and the
event does not occur (log 2). -/
def onTxAccept (s : State) : Out :=
  if s.sending = false then .next s
  else if h : s.txIdx < 10 then
    match s.cmdBuf with
    | some buf =>
      let t := s.sendByte buf[s.txIdx]
      .next (if t.txIdx = 10 then t.sendDone else t)
    | none => .fault (.unwrittenRead .cmdBuf)
  else .next s

/-- RxByte(b) with PST = P_FLAG (41_frame_decoder.md R142): a flag that is a whole frame executes at once, any other
begins its payload. -/
def onFlagByte (b : Byte) (s : State) : Out :=
  match decodeFrame [b] with
  | .ok i _ => exec i (s.setFlag b)
  | .bad _ => .next ((s.setFlag b).beginPayload (payloadLen b))

/-- The event that completes a payload: FLAG and PBUF[0..PLEN-1] are the frame's bytes, and the instruction they decode
to executes (41_frame_decoder.md R153 to R155). -/
def completeFrame (f : Byte) (s : State) : Out :=
  match s.readPayload s.plen with
  | none => .fault (.unwrittenRead .pbuf)
  | some p =>
    match decodeFrame (f :: p) with
    | .ok i _ => exec i s
    | .bad _ => .fault .frameRegisters

/-- RxByte(b) with PST = P_PAY (41_frame_decoder.md R153). -/
def onPayloadByte (b : Byte) (s : State) : Out :=
  match s.flag with
  | none => .fault (.unwrittenRead .flag)
  | some f =>
    if h : s.idx < 58 then
      let t := s.storePayload f b h
      if t.idx = t.plen then completeFrame f t else .next t
    else .fault .payloadOverrun

/-- RxByte: the transport delivers the oldest byte it holds, only while rx_ready = 1 (41_frame_decoder.md R160); with no
byte held or no window open the event does not occur (log 2). -/
def onRxByte (s : State) : Out :=
  match s.rxPending with
  | [] => .next s
  | b :: rest =>
    match s.pst with
    | .flag => onFlagByte b { s with rxPending := rest }
    | .pay => onPayloadByte b { s with rxPending := rest }
    | .idle | .unused3 => .next s

/-- RxTimeout: Absent in the flag window, Short in the payload window (41_frame_decoder.md R152, R156); with no window
open the event does not occur (41_frame_decoder.md R160; log 2). -/
def onRxTimeout (s : State) : Out :=
  match s.pst with
  | .flag => finishRead (.invalid .absent 0#8) s
  | .pay =>
    match s.flag with
    | some f => finishRead (.invalid .short f) s
    | none => .fault (.unwrittenRead .flag)
  | .idle | .unused3 => .next s

/-- One event (00_scope.md R6, 20_memory.md R69). -/
def onEvent (e : Event) (s : State) : Out :=
  match e with
  | .cmdRequest r => onRequest r s
  | .txAccept => onTxAccept s
  | .devByte b => .next (s.arrive b)
  | .rxByte => onRxByte s
  | .rxTimeout => onRxTimeout s
  | .reset => .next s.resetEngine

/-- Takes the oldest event to come. With none, the engine waits and its state persists (60_exceptions.md R290; log 1). -/
def nextEvent (s : State) : Out :=
  match s.inputs with
  | [] => .next s
  | e :: rest => onEvent e (s.takeEvent rest)

/-- A state in which a parser result has somewhere to go: the read outstanding there is, or the Collecting loop's. -/
def State.withReadOutstanding (s : State) : State :=
  match s.seqState, s.sub with
  | .collecting, _ => s
  | .configSent, .echo => s
  | .configSent, .ack => s
  | _, _ => { s with seqState := .collecting }

/-- PBUF with the given bytes from index 0 on; the other bytes keep what they hold. -/
def fillPayload (buf : Vector (Option Byte) 58) (bs : List Byte) : Vector (Option Byte) 58 :=
  Vector.ofFn fun k => match bs[k.val]? with
    | some b => some b
    | none => buf[k]

/-- Sets up the reception of an inbound frame up to its last byte, which the next step delivers: an outstanding read, the
parser's registers as the earlier bytes leave them, the last byte held by the transport, and its delivery as the next
event (log 12). -/
def placeFrame (f : Byte) (p : List Byte) (s : State) : State :=
  let s := s.withReadOutstanding
  match (p.take (payloadLen f)).reverse with
  | [] => { s with pst := .flag, rxPending := f :: s.rxPending, inputs := .rxByte :: s.inputs }
  | last :: rev =>
    let fetched := rev.reverse
    { s with
      pst := .pay, flag := some f, plen := payloadLen f, idx := fetched.length
      pbuf := fillPayload s.pbuf fetched
      sum := if checksummed f then BitVec.ofNat 16 (byteSum (fetched.take (payloadLen f - Config.cksumLen))) else 0
      rxPending := last :: s.rxPending, inputs := .rxByte :: s.inputs }

/-- Places the instruction of a table word so that the next step runs it: a command word becomes the next command request,
a frame word the frame whose last byte is delivered next (log 12). -/
def placeTableWord (s : State) (nbits w : Nat) : State :=
  if nbits = commandWordBits then
    match takeVec 9 (wordBytes 9 (w % 2 ^ nbits / 256)) with
    | some (p, _) => { s with inputs := .cmdRequest (Request.ofFrame (BitVec.ofNat 8 w) p) :: s.inputs }
    | none => s
  else
    placeFrame (BitVec.ofNat 8 (w % 2 ^ nbits)) (wordBytes 58 (w % 2 ^ nbits / 256)) s

end Sys2Proof.Machine
end

