-- ==== Sys2Proof/Safety.lean ====
section
/-! DEFINITION. What counts as a safe run: the invariant of every state a run from reset reaches, part by part, and the
words claims are stated in. -/

namespace Sys2Proof.Machine

/-- The state an outcome goes on in, if it goes on. -/
def nextOf : Out → Option State
  | .next s => some s
  | .fault _ => none
  | .refused _ => none

/-- `n` steps: a fault or a refusal ends the run. -/
def steps : Nat → State → Out
  | 0, s => .next s
  | n + 1, s => match step s with
    | .next t => steps n t
    | .fault f => .fault f
    | .refused r => .refused r

/-- A read is outstanding: the echo or acknowledgment phase of a configuration exchange, or Collecting
(43_acquisition_sequencer.md R241). -/
def State.readOutstanding (s : State) : Bool :=
  match s.seqState with
  | .configSent => s.sub == .echo || s.sub == .ack
  | .collecting => true
  | .idle | .configured | .configFailed | .measCmdSent | .complete | .aborted | .cmdSent => false

/-- In P_PAY, FLAG and PLEN agree, IDX is below PLEN, the bytes below IDX are written, and SUM is their sum before the
checksum field (10_state.md R24 to R28, 40_checksum_codec.md R126). -/
def State.fetchOk (s : State) : Bool :=
  match s.flag, s.readPayload s.idx with
  | some f, some bs =>
    decide (s.plen = payloadLen f ∧ s.idx < s.plen ∧
      (checksummed f = true → s.sum = BitVec.ofNat 16 (byteSum (bs.take (s.plen - Config.cksumLen)))))
  | _, _ => false

/-- The parser: a window is open exactly when a read is outstanding (43_acquisition_sequencer.md R241), and an open payload
window is consistent. -/
def State.parserOk (s : State) : Bool :=
  decide (s.pst ≠ .unused3) && (s.rxReady == s.readOutstanding) && decide (s.idx ≤ 58) &&
    (decide (s.pst ≠ .pay) || s.fetchOk)

/-- TX_IDX is below 10 exactly while a frame is being sent (42_command_encoder.md R191, R196). -/
def State.txIdxOk (s : State) : Bool := if s.sending then decide (s.txIdx < 10) else decide (s.txIdx = 10)

/-- CMD_BUF holds the frame of the last accepted opcode, OP (10_state.md R30, R33). -/
def State.cmdBufOk (s : State) : Bool :=
  match s.cmdBuf with
  | none => decide (s.op = 0#8) && !s.busy
  | some buf => decide (buf[0] = s.op ∧ 1 ≤ s.op.toNat ∧ s.op.toNat ≤ 8)

/-- MODE and OP agree with the acquisition state (10_state.md R34; 43_acquisition_sequencer.md R220, R222, R238). -/
def State.modeOk (s : State) : Bool :=
  match s.seqState with
  | .configSent | .configured | .configFailed => configOp s.op && s.mode == .none
  | .measCmdSent | .collecting | .complete | .aborted =>
    match s.mode with
    | .none => false
    | .single => s.op == 5#8
    | .cont => s.op == 6#8
    | .stream => s.op == 7#8 || s.op == 8#8
  | .cmdSent => (s.op == 7#8 || s.op == 8#8) && s.mode == .none
  | .idle => (s.op == 0#8 || s.op == 7#8 || s.op == 8#8) && s.mode == .none

/-- SUB leaves TX only inside CONFIG_SENT (10_state.md R32). -/
def State.subOk (s : State) : Bool := s.sub == .tx || s.seqState == .configSent

/-- INV_COUNT is at most INVALID_LIMIT until the abort and one more at it; both counters stay 0 before Collecting
(10_state.md R36, R37; 43_acquisition_sequencer.md R231). -/
def State.invCountOk (s : State) : Bool :=
  match s.seqState with
  | .collecting | .complete => decide (s.invCount ≤ Config.invalidLimit)
  | .aborted => decide (s.invCount = Config.invalidLimit + 1)
  | .idle | .configSent | .configured | .configFailed | .measCmdSent | .cmdSent =>
    decide (s.invCount = 0 ∧ s.recCount = 0)

/-- A SINGLE session has at most one record, and none unless it is COMPLETE (43_acquisition_sequencer.md R230). -/
def State.singleOk (s : State) : Bool :=
  decide (s.mode = .single → s.recCount ≤ 1 ∧ (s.seqState ≠ .complete → s.recCount = 0))

/-- EXPECTED and EXP_VALID are those of a CONT session, and MISSING is settled exactly at its end
(10_state.md R38, R39; 43_acquisition_sequencer.md R232, R237). -/
def State.expectedOk (s : State) : Bool :=
  decide (s.expValid = (s.mode == .cont) ∧ s.expected < 2 ^ 56 ∧ (s.expValid = false → s.expected = 0) ∧
    s.missing = if s.expValid && s.done then (s.expected : Int) - (s.recCount : Int) else 0)

/-- LAST_ERROR is one the acquisition state allows, and in a measurement session it is set exactly when an invalid frame
has been counted (60_exceptions.md R271, R279). -/
def State.errorOk (s : State) : Bool :=
  match s.seqState with
  | .idle | .configSent | .configured | .measCmdSent | .cmdSent => s.lastError == .none
  | .configFailed => s.lastError == .configMismatch
  | .aborted => s.lastError == .tooManyInvalidFrames
  | .collecting | .complete =>
    if s.invCount = 0 then s.lastError == .none
    else s.lastError == .invalidFrame || s.lastError == .unrecognizedPacketFlag

/-- A valid echo has its flag's length and written bytes; without one, ECHO_LEN and ECHO_FLAG are 0
(10_state.md R40; 43_acquisition_sequencer.md R222, R224). -/
def State.echoBufOk (s : State) : Bool :=
  if s.echoValid then
    decide ((s.echoFlag = 0x02#8 ∧ s.echoLen = 3) ∨ (s.echoFlag = 0x03#8 ∧ s.echoLen = 9)) &&
      (allWritten (s.echoBuf.toList.take s.echoLen)).isSome
  else decide (s.echoLen = 0 ∧ s.echoFlag = 0#8)

/-- CFG_MATCH and ACK_KIND have the values the exchange's phase allows (10_state.md R41; 43_acquisition_sequencer.md R222,
R224, R226). -/
def State.exchangeOk (s : State) : Bool :=
  match s.seqState with
  | .configSent => s.ackKind == .none && (s.sub == .ack || !s.cfgMatch)
  | .configured => s.ackKind != .none && s.cfgMatch
  | .configFailed => s.ackKind != .none && !s.cfgMatch
  | .idle | .measCmdSent | .collecting | .complete | .aborted | .cmdSent => true

/-- The invariant of every state a run from reset reaches. -/
def State.inv (s : State) : Bool :=
  s.parserOk && s.txIdxOk && s.cmdBufOk && s.modeOk && s.subOk && s.invCountOk && s.singleOk && s.expectedOk && s.errorOk &&
    s.echoBufOk && s.exchangeOk

/-- A step is safe when it answers a next state: the engine "always returns a result" and has no fatal error
(60_exceptions.md R270). -/
def safeStep (s : State) : Prop := ∃ t, step s = .next t

end Sys2Proof.Machine
end

