-- ==== Sys2Proof/Certificates/Slice0/Obligations.lean ====
section
/-! DEFINITION. The statements for the provers, from the numbered rules of spec/. Each result statement gives the next
state as a record update, so that it states the instruction's frame as well: a field not named there is unchanged. -/

namespace Sys2Proof.Claims

open Sys2Proof.Machine

/-- The registers every accepted command writes (R196, R222) and the answer in the output log (R180). -/
def sessionRegisters (op : Byte) (buf : Vector Byte 10) (s : State) : State :=
  { s with
    cmdBuf := some buf, txIdx := 0, op := op, recCount := 0, invCount := 0, missing := 0, expValid := false
    expected := 0, lastError := .none, lastInv := .none, lastInvFlag := 0, log := s.log ++ [.cmdResult .none 0] }

/-- The start of a configuration exchange (R222, opcodes 1 to 4). -/
def configStarted (op : Byte) (buf : Vector Byte 10) (s : State) : State :=
  { sessionRegisters op buf s with
    seqState := .configSent, sub := .tx, mode := .none, cfgMatch := false, ackKind := .none
    echoValid := false, echoLen := 0, echoFlag := 0 }

/-- A refused request: its answer in the output log and nothing else (R193, R221). -/
def refusedWith (code : ErrorCode) (field : Byte) (s : State) : State :=
  { s with log := s.log ++ [.cmdResult code field] }

/-- A command whose operands the command port accepts under the parameters `p` (R8, R181, R183): the others accept every
operand. -/
def operandsLegal (p : Params) : Instr → Prop
  | .setmag cc tmrc => tmrc.toNat ≤ 13 ∧ cc ∉ p.ccExcluded
  | .setimu f => ∀ k : Fin 9, f[k].toNat < Config.imuFieldCount[k]
  | _ => True

/-- The operand fields a command is refused for, by field id (R180, R181, R183). -/
def offends (p : Params) : Instr → Byte → Prop
  | .setmag cc tmrc, field => (field = 1 ∧ 13 < tmrc.toNat) ∨ (field = 2 ∧ tmrc.toNat ≤ 13 ∧ cc ∈ p.ccExcluded)
  | .setimu f, field => ∃ k : Fin 9, field = BitVec.ofNat 8 (16 + k.val) ∧ Config.imuFieldCount[k] ≤ f[k].toNat
  | _, _ => False

/-- The report of a session ending in `st` with these counts and this error (R237). -/
def sessionReport (s : State) (st : SeqState) (records invalid : Nat) (error : ErrorCode) : Report where
  state := st
  op := s.op
  mode := s.mode
  records := records
  invalid := invalid
  expected := if s.expValid then some s.expected else none
  missing := if s.expValid then some ((s.expected : Int) - (records : Int)) else none
  cfgMatch := if s.op = 1#8 ∨ s.op = 2#8 ∨ s.op = 3#8 ∨ s.op = 4#8 then some s.cfgMatch else none
  ackKind := if s.op = 1#8 ∨ s.op = 2#8 ∨ s.op = 3#8 ∨ s.op = 4#8 then some s.ackKind else none
  error := error

/-- MISSING at the end of a session that holds `records` records (R237). -/
def missingAtEnd (s : State) (records : Nat) : Int :=
  if s.expValid then (s.expected : Int) - (records : Int) else s.missing

/-- The end of a session: the state, MISSING, no read outstanding, and the report (R237). -/
def sessionEnded (s : State) (st : SeqState) (error : ErrorCode) : State :=
  { s with
    seqState := st, pst := .idle, missing := missingAtEnd s s.recCount, lastError := error
    log := s.log ++ [.sessionEnd (sessionReport s st s.recCount s.invCount error)] }

/-- The end of a configuration exchange whose acknowledgment frame had kind `k` (R226, R237). -/
def exchangeEnded (k : AckKind) (s : State) : State :=
  sessionEnded { s with ackKind := k, sub := .tx }
    (if s.cfgMatch then .configured else .configFailed) (if s.cfgMatch then s.lastError else .configMismatch)

/-- LAST_INV and LAST_INV_FLAG hold an Invalid result (R42, R274). -/
def invalidRecorded (reason : InvalidReason) (f : Byte) (s : State) : State :=
  { s with lastInv := .reason reason, lastInvFlag := f }

/-- What an Invalid result does in Collecting (R231): it is counted and recorded, and the session goes on below the
threshold and aborts past it. -/
def invalidCounted (reason : InvalidReason) (f : Byte) (error : ErrorCode) (s : State) : State :=
  let t : State := invalidRecorded reason f { s with invCount := s.invCount + 1 }
  if s.invCount + 1 ≤ 9 then { t with lastError := error, pst := .flag }
  else sessionEnded t .aborted .tooManyInvalidFrames

/-- What a data frame's record does in Collecting (R230, R234): it is emitted with the number of records before it; a
SINGLE session then ends and any other reads on. -/
def recordCollected (r : Record) (s : State) : State :=
  let t : State := { s with recCount := s.recCount + 1, log := s.log ++ [.record s.recCount r] }
  if s.mode = .single then sessionEnded t .complete s.lastError else { t with pst := .flag }

/-- The registers of the parser once the flag and the whole payload of a frame have been received (R142, R153), `n` events
later, with `rest` still held by the transport and `es` still to come. -/
def received (f : Byte) (p : List Byte) (n : Nat) (rest : List Byte) (es : List Event) (s : State) : State :=
  let t : State := { s with flag := some f, rxPending := rest, inputs := es, events := s.events + n }
  if p = [] then t
  else
    { t with
      pst := .pay, plen := p.length, idx := p.length, pbuf := fillPayload s.pbuf p
      sum := if checksummed f then BitVec.ofNat 16 (cksCalc p) else 0 }

/-- Where the sequencer goes after the last byte of a command frame (R223). -/
def sendFinished (s : State) : State :=
  match s.seqState with
  | .configSent => { s with sub := .echo, pst := .flag }
  | .measCmdSent => { s with seqState := .collecting, pst := .flag }
  | _ => { s with seqState := .idle }

/-- Whether the next event is a given one. -/
def nextIs (s : State) (e : Event) : Bool := s.inputs.head? == some e

/-- Whether the next event ends a read: a delivery or a timeout with a window open. -/
def readEnds (s : State) : Bool := (nextIs s .rxByte || nextIs s .rxTimeout) && s.rxReady

/-- Whether the next event takes the tenth byte of the frame. -/
def tenthTxAccept (s : State) : Bool := nextIs s .txAccept && decide (s.txIdx = 9)

/-- The edges of the transition table of R220, row by row with the event and the condition each row gives; the first
disjunct is a step that stays. -/
def edge (s t : State) : Prop :=
  (t.seqState = s.seqState ∧ t.sub = s.sub) ∨
  (s.ready = true ∧ (∃ r es, s.inputs = .cmdRequest r :: es) ∧
    (((t.op = 1#8 ∨ t.op = 2#8 ∨ t.op = 3#8 ∨ t.op = 4#8) ∧ t.seqState = .configSent ∧ t.sub = .tx) ∨
     ((t.op = 5#8 ∨ t.op = 6#8) ∧ t.seqState = .measCmdSent ∧ t.sub = s.sub) ∨
     (t.op = 7#8 ∧ t.sub = s.sub ∧ t.seqState = if s.params.respSendAvail = .collect then .measCmdSent else .cmdSent) ∨
     (t.op = 8#8 ∧ t.sub = s.sub ∧ t.seqState = if s.params.respStopAll = .collect then .measCmdSent else .cmdSent))) ∨
  (tenthTxAccept s = true ∧
    ((s.seqState = .configSent ∧ s.sub = .tx ∧ t.seqState = .configSent ∧ t.sub = .echo) ∨
     (s.seqState = .measCmdSent ∧ t.seqState = .collecting ∧ t.sub = s.sub) ∨
     (s.seqState = .cmdSent ∧ t.seqState = .idle ∧ t.sub = s.sub))) ∨
  (readEnds s = true ∧
    ((s.seqState = .configSent ∧ s.sub = .echo ∧ t.seqState = .configSent ∧ t.sub = .ack) ∨
     (s.seqState = .configSent ∧ s.sub = .ack ∧ s.cfgMatch = true ∧ t.seqState = .configured ∧ t.sub = .tx) ∨
     (s.seqState = .configSent ∧ s.sub = .ack ∧ s.cfgMatch = false ∧ t.seqState = .configFailed ∧ t.sub = .tx) ∨
     (s.seqState = .collecting ∧ s.mode = .single ∧ t.recCount = s.recCount + 1 ∧ t.seqState = .complete ∧
       t.sub = s.sub) ∨
     (s.seqState = .collecting ∧ t.recCount = s.recCount ∧ t.invCount = s.invCount ∧ t.seqState = .complete ∧
       t.sub = s.sub) ∨
     (s.seqState = .collecting ∧ t.invCount = s.invCount + 1 ∧ 9 < s.invCount + 1 ∧ t.seqState = .aborted ∧
       t.sub = s.sub))) ∨
  (nextIs s .reset = true ∧ t.seqState = .idle ∧ t.sub = .tx)

end Sys2Proof.Claims

open Sys2Proof Sys2Proof.Machine Sys2Proof.Claims

/-! ### Encoding -/

/-- Decoding an encoded instruction gives it back, with every operand at every value its encoding admits, and leaves the
bytes after it (R82, R83, R85, R95). The Default forms are in `DefaultFramesDecodeAsCustom`. -/
def Obligations.DecodeOfEncodeIsIdentity : Prop :=
  ∀ (i : Instr) (rest : List Byte), i.wellFormed = true → i.isDefaultForm = false →
    decodeFor i (encode i ++ rest) = .ok i rest

/-- Every decoded word has one meaning: the instruction is well formed, of the decoder's own half of the set, and encodes
back to the bytes read, by the layouts of R82, R83 and R85. That the command decoder accepts only what the encoder
produces, and never answers a Default form, is the model's choice (log 13). -/
def Obligations.EncodeOfDecodeIsIdentity : Prop :=
  ∀ (bs : List Byte) (i : Instr) (rest : List Byte),
    (decodeCommand bs = .ok i rest →
      i.isCommand = true ∧ i.isDefaultForm = false ∧ i.wellFormed = true ∧ encode i ++ rest = bs) ∧
    (decodeFrame bs = .ok i rest → i.isCommand = false ∧ i.wellFormed = true ∧ encode i ++ rest = bs)

/-- A Default frame is a Custom frame a decoder cannot tell apart, whatever the open payload is within its constraints
(R182, R184; opcode_table.json; the decoding choice is log 13). -/
def Obligations.DefaultFramesDecodeAsCustom : Prop :=
  ∀ rest : List Byte,
    (∃ tmrc : Byte, tmrc.toNat ≤ 13 ∧ decodeCommand (encode .setmagDefault ++ rest) = .ok (.setmag 200 tmrc) rest) ∧
    (∃ f : Vector Byte 9, (∀ k : Fin 9, f[k].toNat < Config.imuFieldCount[k]) ∧
      decodeCommand (encode .setimuDefault ++ rest) = .ok (.setimu f) rest)

/-- The first byte alone decides an inbound frame's length, 1 + PAYLOAD_LEN for a known flag and 1 for any other; a command
frame is always 10 bytes (R95, with the lengths of R85). -/
def Obligations.LengthFromFirstByteAlone : Prop :=
  (∀ (f : Byte) (bs : List Byte),
    (payloadLen f ≤ bs.length → ∃ i, decodeFrame (f :: bs) = .ok i (bs.drop (payloadLen f))) ∧
    (bs.length < payloadLen f → decodeFrame (f :: bs) = .bad .tooShort)) ∧
  (payloadLen 0x01#8 = 18 ∧ payloadLen 0x02#8 = 3 ∧ payloadLen 0x03#8 = 9 ∧ payloadLen 0x04#8 = 44 ∧ payloadLen 0x05#8 = 58 ∧
    payloadLen 0x06#8 = 46 ∧ payloadLen 0x07#8 = 56 ∧ payloadLen 0x0A#8 = 0) ∧
  (∀ f : Byte, f ∉ knownFlags → payloadLen f = 0) ∧
  (∀ i : Instr, i.isCommand = true → (encode i).length = 10)

/-- Words written out from the spec's encodings decode to the instructions they stand for (R84 and the examples of R145,
R183, R187, R188; the all-zero MagOnly payload of R147). -/
def Obligations.WrittenWordsDecode : Prop :=
  decodeCommand [0x01, 0x00, 0xC8, 0x00, 0x00, 0x00, 0x00, 0x00, 0x00, 0x00] = .ok (.setmag 200 0) [] ∧
  decodeCommand [0x02, 0x0B, 0x07, 0x01, 0x03, 0x07, 0x02, 0x01, 0x01, 0x04]
    = .ok (.setimu #v[11, 7, 1, 3, 7, 2, 1, 1, 4]) [] ∧
  decodeCommand [0x05, 0x0D, 0x00, 0x00, 0x00, 0x00, 0x00, 0x00, 0x00, 0x00] = .ok (.single 13) [] ∧
  decodeCommand [0x06, 0x0F, 0x00, 0x0A, 0x00, 0x00, 0x00, 0x00, 0x00, 0x78] = .ok (.cont 15 false 10 120) [] ∧
  decodeFrame [0x02, 0x00, 0xC8, 0x00, 0x0A] = .ok (.fMecho #v[0x00, 0xC8, 0x00]) [0x0A] ∧
  decodeFrame (0x04 :: List.replicate 44 0x00) = .ok (.fMag (Vector.replicate 44 0x00)) [] ∧
  decodeFrame [0xFF, 0x0A] = .ok (.fUnrec 0xFF) [0x0A]

/-! ### Codec -/

/-- R120: the twos-complement decode, its formula, corner cases and range, for every width n ≥ 1. -/
def Obligations.TwosComplementDecode : Prop :=
  ∀ v n : Nat, 1 ≤ n → v < 2 ^ n →
    (v.testBit (n - 1) = true → tc v n = (v : Int) - 2 ^ n) ∧ (v.testBit (n - 1) = false → tc v n = (v : Int)) ∧
    -(2 ^ (n - 1) : Int) ≤ tc v n ∧ tc v n ≤ (2 ^ (n - 1) : Int) - 1 ∧
    tc 0 n = 0 ∧ tc (2 ^ (n - 1) - 1) n = (2 ^ (n - 1) : Int) - 1 ∧ tc (2 ^ (n - 1)) n = -(2 ^ (n - 1) : Int) ∧
    tc (2 ^ n - 1) n = -1

/-- The decode is stable under re-encoding (the spec marks R129 as derived). -/
def Obligations.TwosComplementStable : Prop :=
  ∀ v n : Nat, 1 ≤ n → v < 2 ^ n → tc ((tc v n) % (2 ^ n : Int)).toNat n = tc v n

/-- R122: the unsigned big-endian integer of the bytes is the weighted sum of the bytes, first byte most significant; one
byte is itself, and n bytes 0xFF give 2^(8n) − 1. -/
def Obligations.BigEndianWeightedSum : Prop :=
  (∀ bs : List Byte, beNat bs = ∑ k : Fin bs.length, (bs.get k).toNat * 256 ^ (bs.length - 1 - k.val)) ∧
  (∀ b : Byte, beNat [b] = b.toNat) ∧ (∀ n : Nat, beNat (List.replicate n 0xFF) = 2 ^ (8 * n) - 1)

/-- R128: the n-byte big-endian encoding, byte by byte, and its inverse. -/
def Obligations.BigEndianEncoding : Prop :=
  ∀ v n : Nat, v < 256 ^ n →
    (bytesBE v n).length = n ∧
    (∀ k : Nat, k < n → (bytesBE v n)[k]? = some (BitVec.ofNat 8 ((v >>> (8 * (n - 1 - k))) &&& 0xFF))) ∧
    bytesBE 0 n = List.replicate n 0 ∧ beNat (bytesBE v n) = v

/-- The sum before the checksum field never exceeds 16 bits, so that comparing it reduced or unreduced is the same (the
spec marks R125 as derived; 90_conflicts.md C6). -/
def Obligations.ChecksumSumFitsSixteenBits : Prop :=
  ∀ (f : Byte) (p : List Byte), checksummed f = true → p.length = payloadLen f →
    cksCalc p ≤ 255 * (payloadLen f - 2) ∧ cksCalc p < 2 ^ 16 ∧
    (verifyChecksum p = true ↔ cksCalc p % 2 ^ 16 = cksWire p)

/-- Any single-bit flip of a valid checksummed payload is rejected (the spec marks R127 as derived). -/
def Obligations.SingleBitFlipRejected : Prop :=
  ∀ (f : Byte) (p : List Byte) (k : Nat) (j : Fin 8), checksummed f = true → p.length = payloadLen f →
    verifyChecksum p = true → k < p.length →
    verifyChecksum (p.modify k (· ^^^ (1#8 <<< j.val))) = false

/-- With SUM the sum of the bytes before the checksum field, FinishChecksummed fails exactly when verifyChecksum does
(R154, R157; SUM's exactness is R126, marked derived). -/
def Obligations.FinishAgreesWithVerify : Prop :=
  ∀ (f : Byte) (p : List Byte), checksummed f = true → p.length = payloadLen f →
    (verifyChecksum p = false → finishChecksummed f p (BitVec.ofNat 16 (cksCalc p)) = .invalid .checksum f) ∧
    (verifyChecksum p = true → f = 0x01#8 → finishChecksummed f p (BitVec.ofNat 16 (cksCalc p)) = .debug (p.take 16)) ∧
    (verifyChecksum p = true → f ≠ 0x01#8 →
      finishChecksummed f p (BitVec.ofNat 16 (cksCalc p)) = .record (decodeRecord f p))

/-- The record's fields, byte by byte, for each of the four data flags (R158 over the layouts of R86 to R90; the order of
the fields on the wire is the spec's decision D5). -/
def Obligations.RecordFieldsFromPayload : Prop :=
  ∀ (f : Byte) (p : Nat → Byte), f = 0x04#8 ∨ f = 0x05#8 ∨ f = 0x06#8 ∨ f = 0x07#8 →
    let r := decodeRecord f ((List.range (payloadLen f)).map p)
    r.flag = f ∧ r.tsSec = p 0 ++ p 1 ++ p 2 ++ p 3 ∧ r.tsTick = p 4 ++ p 5 ∧
    (∀ (s : Fin 4) (a : Fin 3),
      r.mag[s][a] = p (6 + 9 * s + 3 * a) ++ p (7 + 9 * s + 3 * a) ++ p (8 + 9 * s + 3 * a) ∧
      r.magv[s][a] = (r.mag[s][a]).toInt) ∧
    (r.hasImu = true ↔ f = 0x05#8 ∨ f = 0x07#8) ∧ (r.hasTemp = true ↔ f = 0x05#8 ∨ f = 0x06#8) ∧
    (r.hasImu = true →
      ∃ acc gyr : Vector (BitVec 16) 3, ∃ accv gyrv : Vector Int 3,
        r.acc = some acc ∧ r.gyr = some gyr ∧ r.accv = some accv ∧ r.gyrv = some gyrv ∧
        ∀ a : Fin 3, acc[a] = p (42 + 2 * a) ++ p (43 + 2 * a) ∧ gyr[a] = p (48 + 2 * a) ++ p (49 + 2 * a) ∧
          accv[a] = (acc[a]).toInt ∧ gyrv[a] = (gyr[a]).toInt) ∧
    (r.hasImu = false → r.acc = none ∧ r.gyr = none ∧ r.accv = none ∧ r.gyrv = none) ∧
    (f = 0x05#8 → r.temp = some (p 54 ++ p 55)) ∧ (f = 0x06#8 → r.temp = some (p 42 ++ p 43)) ∧
    (r.hasTemp = false → r.temp = none) ∧
    r.cksum = p (payloadLen f - 2) ++ p (payloadLen f - 1)

/-! ### Commands -/

/-- SETMAG in a ready state, both modes: a legal TMRC index and cycle count start a configuration exchange with the frame of
R181, an illegal index is refused with field id 1, and with a legal index a cycle count outside the parameter CC_VALID
with field id 2; Default mode sends MAG_DEFAULT_PAYLOAD (R8, R182; the layout is the spec's D11, CC_VALID its D15). -/
def Obligations.SetmagInReadyState : Prop :=
  ∀ (cc : BitVec 16) (tmrc : Byte) (s : State), s.ready = true →
    (tmrc.toNat ≤ 13 → cc ∉ s.params.ccExcluded → exec (.setmag cc tmrc) s = .next (configStarted 0x01#8
      #v[0x01, cc.extractLsb' 8 8, cc.extractLsb' 0 8, tmrc, 0, 0, 0, 0, 0, 0] s)) ∧
    (tmrc.toNat ≤ 13 → cc ∈ s.params.ccExcluded →
      exec (.setmag cc tmrc) s = .next (refusedWith .invalidFieldIndex 2 s)) ∧
    (13 < tmrc.toNat → exec (.setmag cc tmrc) s = .next (refusedWith .invalidFieldIndex 1 s)) ∧
    exec .setmagDefault s = .next (configStarted 0x01#8
      #v[0x01, 0x00, 0xC8, BitVec.ofNat 8 Config.magDefaultTmrc.val, 0, 0, 0, 0, 0, 0] s)

/-- SETIMU Custom in a ready state: nine legal fields start a configuration exchange with the frame of R183, and the lowest
illegal field `k` refuses the request with field id 16 + k (the ranges and the order are the spec's D12, D13). -/
def Obligations.SetimuInReadyState : Prop :=
  ∀ (f : Vector Byte 9) (s : State), s.ready = true →
    ((∀ k : Fin 9, f[k].toNat < Config.imuFieldCount[k]) → exec (.setimu f) s = .next (configStarted 0x02#8
      #v[0x02, f[0], f[1], f[2], f[3], f[4], f[5], f[6], f[7], f[8]] s)) ∧
    (∀ k : Fin 9, Config.imuFieldCount[k] ≤ f[k].toNat →
      (∀ j : Fin 9, j < k → f[j].toNat < Config.imuFieldCount[j]) →
      exec (.setimu f) s = .next (refusedWith .invalidFieldIndex (BitVec.ofNat 8 (16 + k.val)) s))

/-- SETIMU Default in a ready state: the frame is 02 and some payload whose byte k is below COUNT[k] (R184; the payload is
the open parameter of log 9). -/
def Obligations.SetimuDefaultInReadyState : Prop :=
  ∃ f : Vector Byte 9, (∀ k : Fin 9, f[k].toNat < Config.imuFieldCount[k]) ∧
    ∀ s : State, s.ready = true → exec .setimuDefault s = .next (configStarted 0x02#8
      #v[0x02, f[0], f[1], f[2], f[3], f[4], f[5], f[6], f[7], f[8]] s)

/-- GETMAG and GETIMU in a ready state: nine zero payload bytes (R185, R186; the payload is the spec's D21). -/
def Obligations.GetConfigInReadyState : Prop :=
  ∀ s : State, s.ready = true →
    exec .getmag s = .next (configStarted 0x03#8 #v[0x03, 0, 0, 0, 0, 0, 0, 0, 0, 0] s) ∧
    exec .getimu s = .next (configStarted 0x04#8 #v[0x04, 0, 0, 0, 0, 0, 0, 0, 0, 0] s)

/-- SINGLE in a ready state, for every mask: a measurement session in MODE SINGLE with that mask (R187, R222; the layout is
the spec's D17). -/
def Obligations.SingleInReadyState : Prop :=
  ∀ (en : BitVec 4) (s : State), s.ready = true →
    exec (.single en) s = .next { sessionRegisters 0x05#8 #v[0x05, 0#4 ++ en, 0, 0, 0, 0, 0, 0, 0, 0] s with
      seqState := .measCmdSent, mode := .single, mask := en }

/-- CONT in a ready state, for every operand: the encoded rate is 1 in averaged mode, and EXPECTED is the duration times the
encoded rate (R188, R232; the layout and the toggle's polarity are the spec's D18). -/
def Obligations.ContInReadyState : Prop :=
  ∀ (en : BitVec 4) (avg : Bool) (rate : Byte) (dur : BitVec 48) (s : State), s.ready = true →
    let r : Byte := if avg then 1 else rate
    exec (.cont en avg rate dur) s = .next { sessionRegisters 0x06#8
        #v[0x06, 0#4 ++ en, if avg then 1 else 0, r, dur.extractLsb' 40 8, dur.extractLsb' 32 8, dur.extractLsb' 24 8,
           dur.extractLsb' 16 8, dur.extractLsb' 8 8, dur.extractLsb' 0 8] s with
      seqState := .measCmdSent, mode := .cont, mask := en, expValid := true, expected := dur.toNat * r.toNat }

/-- SENDAVAIL and STOPALL in a ready state, for both response protocols (R189, R190, R222, R238; the protocols are the
spec's D24 and are held in State, log 8). -/
def Obligations.SendavailStopallInReadyState : Prop :=
  ∀ s : State, s.ready = true →
    exec .sendavail s = .next { sessionRegisters 0x07#8 #v[0x07, 0, 0, 0, 0, 0, 0, 0, 0, 0] s with
      seqState := if s.params.respSendAvail = .collect then .measCmdSent else .cmdSent
      mode := if s.params.respSendAvail = .collect then .stream else .none } ∧
    exec .stopall s = .next { sessionRegisters 0x08#8 #v[0x08, 0, 0, 0, 0, 0, 0, 0, 0, 0] s with
      seqState := if s.params.respStopAll = .collect then .measCmdSent else .cmdSent
      mode := if s.params.respStopAll = .collect then .stream else .none }

/-- The frame an accepted command puts in CMD_BUF is the instruction's encoding, for every command and mode (R81, R82,
R196). -/
def Obligations.AcceptedFrameIsEncoding : Prop :=
  ∀ (i : Instr) (s : State), i.isCommand = true → operandsLegal s.params i → s.ready = true →
    ∃ t buf, exec i s = .next t ∧ t.cmdBuf = some buf ∧ buf.toList = encode i ∧ t.txIdx = 0 ∧ t.busy = true

/-- R193: validation never clamps or partly applies. A request with legal operands is accepted with the encoding of its
operands as they are; any other is refused with InvalidFieldIndex and the id of an offending field, with every register,
CMD_BUF, TX_IDX, the sequencer's and LAST_ERROR among them, unchanged and nothing transmitted. -/
def Obligations.RefusedRequestChangesNothing : Prop :=
  ∀ (i : Instr) (s : State), i.isCommand = true → s.ready = true →
    (operandsLegal s.params i → ∃ t buf, exec i s = .next t ∧ t.cmdBuf = some buf ∧ buf.toList = encode i) ∧
    (¬ operandsLegal s.params i → ∃ field, offends s.params i field ∧ exec i s = .next (refusedWith .invalidFieldIndex field s))

/-- While BUSY every request, STOPALL and an unknown opcode included, is answered Busy and changes no state (R180, R221; the
refusal is the spec's D30). -/
def Obligations.BusyRefusesEveryRequest : Prop :=
  ∀ (r : Request) (es : List Event) (s : State), s.busy = true → s.inputs = .cmdRequest r :: es →
    step s = .next (refusedWith .busy 0 { s with inputs := es, events := s.events + 1 })

/-- In a ready state an opcode outside 1..8 is answered UnknownOpcode and changes no state (R192; the refusal is the spec's
D31). -/
def Obligations.UnknownOpcodeRefused : Prop :=
  ∀ (op : UnknownOp) (es : List Event) (s : State), s.ready = true → s.inputs = .cmdRequest (.unknown op) :: es →
    step s = .next (refusedWith .unknownOpcode 0 { s with inputs := es, events := s.events + 1 })

/-- The mask a host computes enables exactly the magnetometers that are not explicitly disabled (R194, the spec's D14). -/
def Obligations.EnableMaskDropsDisabled : Prop :=
  ∀ (disabled : List (Fin 4)) (i : Fin 4), (enableMask disabled)[i] = decide (i ∉ disabled)

/-! ### The serializer -/

/-- Ten TxAccept events send CMD_BUF[0] to CMD_BUF[9] in that order, and the tenth opens the first read window or, for a
command with no response protocol, returns to IDLE (R61, R191, R223). -/
def Obligations.WholeFrameIsSentInOrder : Prop :=
  ∀ (s : State) (buf : Vector Byte 10) (es : List Event), s.sending = true → s.txIdx = 0 → s.cmdBuf = some buf →
    s.inputs = List.replicate 10 .txAccept ++ es →
    steps 10 s = .next (sendFinished { s with
      txIdx := 10, log := s.log ++ buf.toList.map .txByte, inputs := es, events := s.events + 10 })

/-- A TxAccept before the tenth sends one byte and changes nothing else (R191; the unlimited wait is the spec's D40). -/
def Obligations.TxAcceptSendsOneByte : Prop :=
  ∀ (s : State) (buf : Vector Byte 10) (es : List Event) (h : s.txIdx < 9), s.sending = true → s.cmdBuf = some buf →
    s.inputs = .txAccept :: es →
    step s = .next { s with
      txIdx := s.txIdx + 1, log := s.log ++ [.txByte buf[s.txIdx]], inputs := es, events := s.events + 1 }

/-- R223: the tenth byte of a command frame. A configuration command opens the echo read, a measurement command the
Collecting loop's first read, a command without response goes to IDLE; before the tenth byte no event opens a read
window. -/
def Obligations.SendDoneByState : Prop :=
  (∀ (s : State) (buf : Vector Byte 10) (es : List Event), s.cmdBuf = some buf → s.inputs = .txAccept :: es →
    let t : State := { s with
      txIdx := 10, log := s.log ++ [.txByte buf[9]], inputs := es, events := s.events + 1 }
    (s.txIdx = 9 → s.seqState = .configSent → s.sub = .tx → step s = .next { t with sub := .echo, pst := .flag }) ∧
    (s.txIdx = 9 → s.seqState = .measCmdSent → step s = .next { t with seqState := .collecting, pst := .flag }) ∧
    (s.txIdx = 9 → s.seqState = .cmdSent → step s = .next { t with seqState := .idle }) ∧
    (s.txIdx < 9 → s.sending = true →
      ∃ u, step s = .next u ∧ u.pst = s.pst ∧ u.seqState = s.seqState ∧ u.sub = s.sub ∧ u.txIdx = s.txIdx + 1)) ∧
  (∀ s u : State, s.inv = true → s.sending = true → tenthTxAccept s = false → step s = .next u → u.rxReady = false)

/-! ### The parser's events -/

/-- A step runs the decoded instruction: a request executes the instruction it is, the flag byte of a one-byte frame and
the last payload byte of any other frame execute the instruction the frame's bytes decode to (R142, R153, R180). -/
def Obligations.StepRunsDecodedInstruction : Prop :=
  (∀ (s : State) (r : Request) (i : Instr) (es : List Event), s.inputs = .cmdRequest r :: es → r.instr = some i →
    step s = exec i { s with inputs := es, events := s.events + 1 }) ∧
  (∀ (s : State) (b : Byte) (rest : List Byte) (es : List Event) (i : Instr), s.inputs = .rxByte :: es → s.pst = .flag →
    s.rxPending = b :: rest → decodeFrame [b] = .ok i [] →
    step s = exec i { s with flag := some b, rxPending := rest, inputs := es, events := s.events + 1 }) ∧
  (∀ (s : State) (f b : Byte) (p rest : List Byte) (es : List Event) (i : Instr) (h : s.idx < 58),
    s.inputs = .rxByte :: es → s.pst = .pay → s.rxPending = b :: rest → s.flag = some f → s.idx + 1 = s.plen →
    s.readPayload s.idx = some p → decodeFrame (f :: (p ++ [b])) = .ok i [] →
    step s = exec i { s with
      pbuf := s.pbuf.set s.idx (some b), idx := s.idx + 1, rxPending := rest, inputs := es, events := s.events + 1 })

/-- R142: the flag byte. FLAG takes it; the seven flags with a payload open the payload window with their PAYLOAD_LEN, the
Complete flag and a byte that names no frame end the read with their result. The checksummed attribute is a function of
the flag. -/
def Obligations.FlagByteDispatch : Prop :=
  ∀ (s : State) (b : Byte) (rest : List Byte) (es : List Event), s.inputs = .rxByte :: es → s.pst = .flag →
    s.rxPending = b :: rest →
    let t : State := { s with flag := some b, rxPending := rest, inputs := es, events := s.events + 1 }
    let payload (n : Nat) : State := { t with plen := n, idx := 0, sum := 0, pst := .pay }
    (b = 0x01#8 → step s = .next (payload 18)) ∧ (b = 0x02#8 → step s = .next (payload 3)) ∧
    (b = 0x03#8 → step s = .next (payload 9)) ∧ (b = 0x04#8 → step s = .next (payload 44)) ∧
    (b = 0x05#8 → step s = .next (payload 58)) ∧ (b = 0x06#8 → step s = .next (payload 46)) ∧
    (b = 0x07#8 → step s = .next (payload 56)) ∧
    (b = 0x0A#8 → step s = deliver .complete { t with pst := .idle }) ∧
    (b ∉ knownFlags → step s = deliver (.invalid .unrecognized b) { t with pst := .idle }) ∧
    (checksummed b = true ↔ b = 0x01#8 ∨ b = 0x04#8 ∨ b = 0x05#8 ∨ b = 0x06#8 ∨ b = 0x07#8)

/-- A payload byte before the last (R153): it goes to PBUF[IDX], SUM takes it in a checksummed frame before the checksum
field, IDX counts it. -/
def Obligations.PayloadByteStored : Prop :=
  ∀ (s : State) (f b : Byte) (rest : List Byte) (es : List Event) (h : s.idx < 58), s.inputs = .rxByte :: es →
    s.pst = .pay → s.rxPending = b :: rest → s.flag = some f → s.idx + 1 ≠ s.plen →
    step s = .next { s with
      pbuf := s.pbuf.set s.idx (some b)
      sum := if checksummed f = true ∧ (s.idx : Int) < (s.plen : Int) - 2 then s.sum + b.setWidth 16 else s.sum
      idx := s.idx + 1, rxPending := rest, inputs := es, events := s.events + 1 }

/-- Receiving a whole frame byte by byte, from the flag window on, is executing the instruction its bytes encode, with the
parser's registers as R142 and R153 leave them; SUM is then the sum of the bytes before the checksum field (R126). -/
def Obligations.ByteWiseReceptionExecutesFrame : Prop :=
  ∀ (i : Instr) (s : State) (f : Byte) (p rest : List Byte) (es : List Event), i.isCommand = false →
    i.wellFormed = true → encode i = f :: p → s.pst = .flag → s.rxPending = f :: p ++ rest →
    s.inputs = List.replicate (p.length + 1) .rxByte ++ es →
    steps (p.length + 1) s = exec i (received f p (p.length + 1) rest es s)

/-- R152: a timeout in the flag window ends the read with Invalid(Absent, 0), and no byte is consumed. -/
def Obligations.TimeoutInFlagWindowIsAbsent : Prop :=
  ∀ (s : State) (es : List Event), s.inputs = .rxTimeout :: es → s.pst = .flag →
    step s = deliver (.invalid .absent 0#8) { s with pst := .idle, inputs := es, events := s.events + 1 } ∧
    ∀ t, step s = .next t → t.rxPending = s.rxPending

/-- A timeout in the payload window ends the read with Invalid(Short, FLAG), echo flags included; nothing is re-read and the
bytes still held stay held (R156; the discarding is the spec's D9). -/
def Obligations.TimeoutInPayloadWindowIsShort : Prop :=
  ∀ (s : State) (f : Byte) (es : List Event), s.inputs = .rxTimeout :: es → s.pst = .pay → s.flag = some f →
    step s = deliver (.invalid .short f) { s with pst := .idle, inputs := es, events := s.events + 1 }

/-- An event whose enabling condition fails changes nothing: no byte is delivered and no timeout occurs with no window open
(R160), no byte is delivered while the transport holds none, and no byte is accepted while none is offered (R191).
Dropping such an event is the model's choice (log 2). -/
def Obligations.DisabledEventsChangeNothing : Prop :=
  ∀ (s : State) (e : Event) (es : List Event), s.inputs = e :: es →
    (e = .rxByte ∧ s.rxReady = false) ∨ (e = .rxByte ∧ s.rxPending = []) ∨ (e = .rxTimeout ∧ s.rxReady = false) ∨ (e = .txAccept ∧ s.txValid = false) →
    step s = .next { s with inputs := es, events := s.events + 1 }

/-- A device byte is held by the transport behind the bytes already there, whatever the engine does (R48, R160). With no
event to come the engine waits and all its state persists (R290; the event list is the model's, log 1). -/
def Obligations.DeviceBytesAreHeld : Prop :=
  (∀ (s : State) (b : Byte) (es : List Event), s.inputs = .devByte b :: es →
    step s = .next { s with rxPending := s.rxPending ++ [b], inputs := es, events := s.events + 1 }) ∧
  (∀ s : State, s.inputs = [] → step s = .next s)

/-- Inbound bytes are consumed one at a time, the oldest first, only by a delivery with a window open, and nothing else
takes or drops one (R48, R62). -/
def Obligations.InboundBytesConsumedInOrder : Prop :=
  ∀ s t : State, step s = .next t →
    t.rxPending = s.rxPending ∨
    (∃ b, s.rxPending = b :: t.rxPending ∧ s.rxReady = true ∧ nextIs s .rxByte = true) ∨
    (∃ b, t.rxPending = s.rxPending ++ [b] ∧ nextIs s (.devByte b) = true)

/-! ### Frames in Collecting -/

/-- R233: a Complete marker in Collecting ends the session in COMPLETE, whatever MODE and REC_COUNT are, with its report. -/
def Obligations.CompleteEndsCollecting : Prop :=
  ∀ s : State, s.seqState = .collecting → exec .fCmpl s = .next (sessionEnded s .complete s.lastError)

/-- A data frame whose SUM is its checksum field is emitted as a record with the number of records before it, in each of
the four formats; INV_COUNT is unchanged (R147 to R150, R230, R234; the 0-based index is the spec's D26). -/
def Obligations.DataFrameIsCollected : Prop :=
  ∀ s : State, s.seqState = .collecting →
    (∀ p : Vector Byte 44, s.sum = p[42] ++ p[43] →
      exec (.fMag p) s = .next (recordCollected (decodeRecord 0x04#8 p.toList) s)) ∧
    (∀ p : Vector Byte 58, s.sum = p[56] ++ p[57] →
      exec (.fAll p) s = .next (recordCollected (decodeRecord 0x05#8 p.toList) s)) ∧
    (∀ p : Vector Byte 46, s.sum = p[44] ++ p[45] →
      exec (.fMagt p) s = .next (recordCollected (decodeRecord 0x06#8 p.toList) s)) ∧
    (∀ p : Vector Byte 56, s.sum = p[54] ++ p[55] →
      exec (.fMagi p) s = .next (recordCollected (decodeRecord 0x07#8 p.toList) s))

/-- A Debug frame whose SUM is its checksum field is emitted raw and counted nowhere, and the loop reads on (R144, R236;
what a Debug frame is, is the spec's D6). -/
def Obligations.DebugFrameIsEmitted : Prop :=
  ∀ (s : State) (p : Vector Byte 18), s.seqState = .collecting → s.sum = p[16] ++ p[17] →
    exec (.fDebug p) s = .next { s with pst := .flag, log := s.log ++ [.debug (p.toList.take 16)] }

/-- Echo frames in Collecting are discarded, in every mode, and the loop reads on (R236; the tolerance is the spec's D7). -/
def Obligations.EchoFramesAreDiscardedInCollecting : Prop :=
  ∀ s : State, s.seqState = .collecting →
    (∀ p : Vector Byte 3, exec (.fMecho p) s = .next { s with pst := .flag }) ∧
    (∀ p : Vector Byte 9, exec (.fIecho p) s = .next { s with pst := .flag })

/-- A checksum failure in Collecting is an invalid frame in each of the five checksummed formats: counted, recorded, and at
the tenth the abort (R157, R231, R274; the threshold is 90_conflicts.md C2, log 7). -/
def Obligations.ChecksumFailureIsCounted : Prop :=
  ∀ s : State, s.seqState = .collecting →
    (∀ p : Vector Byte 18, s.sum ≠ p[16] ++ p[17] →
      exec (.fDebug p) s = .next (invalidCounted .checksum 0x01#8 .invalidFrame s)) ∧
    (∀ p : Vector Byte 44, s.sum ≠ p[42] ++ p[43] →
      exec (.fMag p) s = .next (invalidCounted .checksum 0x04#8 .invalidFrame s)) ∧
    (∀ p : Vector Byte 58, s.sum ≠ p[56] ++ p[57] →
      exec (.fAll p) s = .next (invalidCounted .checksum 0x05#8 .invalidFrame s)) ∧
    (∀ p : Vector Byte 46, s.sum ≠ p[44] ++ p[45] →
      exec (.fMagt p) s = .next (invalidCounted .checksum 0x06#8 .invalidFrame s)) ∧
    (∀ p : Vector Byte 56, s.sum ≠ p[54] ++ p[55] →
      exec (.fMagi p) s = .next (invalidCounted .checksum 0x07#8 .invalidFrame s))

/-- An unrecognised flag in Collecting is counted as an invalid frame with its own error code, and the timeouts with theirs
(R151, R231, R274, R276; the threshold is 90_conflicts.md C2, log 7). -/
def Obligations.UnrecognisedFlagAndTimeoutsAreCounted : Prop :=
  ∀ (s : State), s.seqState = .collecting →
    (∀ f : Byte, exec (.fUnrec f) s = .next (invalidCounted .unrecognized f .unrecognizedPacketFlag s)) ∧
    (∀ es, s.inputs = .rxTimeout :: es → s.pst = .flag →
      step s = .next (invalidCounted .absent 0#8 .invalidFrame { s with inputs := es, events := s.events + 1 })) ∧
    (∀ es f, s.inputs = .rxTimeout :: es → s.pst = .pay → s.flag = some f →
      step s = .next (invalidCounted .short f .invalidFrame { s with inputs := es, events := s.events + 1 }))

/-- Ten read windows in a row that expire without a flag byte: the first nine are counted and the session goes on, the tenth
aborts it with its report (R152, R231, R237; the threshold is 90_conflicts.md C2, log 7). -/
def Obligations.TenAbsentFramesAbort : Prop :=
  ∀ (s : State) (es : List Event), s.seqState = .collecting → s.pst = .flag → s.invCount = 0 →
    s.inputs = List.replicate 10 .rxTimeout ++ es →
    let bad (n : Nat) : State := { s with
      invCount := n, lastInv := .reason .absent, lastInvFlag := 0, inputs := s.inputs.drop n, events := s.events + n }
    steps 9 s = .next { bad 9 with lastError := .invalidFrame } ∧
    steps 10 s = .next (sessionEnded (bad 10) .aborted .tooManyInvalidFrames)

/-! ### Frames in a configuration exchange -/

/-- The echo phase with an echo frame: it is recorded and compared as R225 says for each of the four opcodes, and the
acknowledgment read opens (R224, R225; the layouts and protocols are the spec's D11, D12, D22, D23). -/
def Obligations.EchoFrameIsRecordedAndCompared : Prop :=
  ∀ (s : State) (buf : Vector Byte 10), s.seqState = .configSent → s.sub = .echo → s.cmdBuf = some buf →
    s.op = 1#8 ∨ s.op = 2#8 ∨ s.op = 3#8 ∨ s.op = 4#8 →
    (∀ p : Vector Byte 3, exec (.fMecho p) s = .next { s with
      echoFlag := 0x02#8, echoLen := 3, echoValid := true, sub := .ack, pst := .flag
      echoBuf := #v[some p[0], some p[1], some p[2], s.echoBuf[3], s.echoBuf[4], s.echoBuf[5], s.echoBuf[6],
        s.echoBuf[7], s.echoBuf[8]]
      cfgMatch := decide (s.op = 3#8 ∨ (s.op = 1#8 ∧ p[0] = buf[1] ∧ p[1] = buf[2] ∧ p[2] = buf[3])) }) ∧
    (∀ p : Vector Byte 9, exec (.fIecho p) s = .next { s with
      echoFlag := 0x03#8, echoLen := 9, echoValid := true, sub := .ack, pst := .flag
      echoBuf := p.map some
      cfgMatch := decide (s.op = 4#8 ∨ (s.op = 2#8 ∧ ∀ k : Fin 9, p[k] = buf[k.val + 1])) })

/-- The echo phase with any other result, the two timeouts among them: nothing is emitted or counted, an invalid one is
recorded in LAST_INV, CFG_MATCH is 0 and the acknowledgment read opens (R152, R156, R224, R225; the failure is the spec's
D47). -/
def Obligations.OtherFrameInEchoPhaseFailsTheMatch : Prop :=
  ∀ s : State, s.seqState = .configSent → s.sub = .echo →
    s.op = 1#8 ∨ s.op = 2#8 ∨ s.op = 3#8 ∨ s.op = 4#8 →
    let t : State := { s with cfgMatch := false, sub := .ack, pst := .flag }
    let bad (reason : InvalidReason) (f : Byte) : State := invalidRecorded reason f t
    exec .fCmpl s = .next t ∧ (∀ f : Byte, exec (.fUnrec f) s = .next (bad .unrecognized f)) ∧
    (∀ p : Vector Byte 18, exec (.fDebug p) s = .next (if s.sum = p[16] ++ p[17] then t else bad .checksum 0x01#8)) ∧
    (∀ p : Vector Byte 44, exec (.fMag p) s = .next (if s.sum = p[42] ++ p[43] then t else bad .checksum 0x04#8)) ∧
    (∀ p : Vector Byte 58, exec (.fAll p) s = .next (if s.sum = p[56] ++ p[57] then t else bad .checksum 0x05#8)) ∧
    (∀ p : Vector Byte 46, exec (.fMagt p) s = .next (if s.sum = p[44] ++ p[45] then t else bad .checksum 0x06#8)) ∧
    (∀ p : Vector Byte 56, exec (.fMagi p) s = .next (if s.sum = p[54] ++ p[55] then t else bad .checksum 0x07#8)) ∧
    (∀ es, s.inputs = .rxTimeout :: es → s.pst = .flag →
      step s = .next { bad .absent 0#8 with inputs := es, events := s.events + 1 }) ∧
    (∀ es f, s.inputs = .rxTimeout :: es → s.pst = .pay → s.flag = some f →
      step s = .next { bad .short f with inputs := es, events := s.events + 1 })

/-- The acknowledgment phase: whatever is read, a timeout included, is discarded with its kind kept, and the exchange ends
CONFIGURED or CONFIG_FAILED as CFG_MATCH says, with its report (R152, R156, R226, R237; reading any frame is the spec's
D22). That an Invalid result there is recorded in LAST_INV, as R42 and R274 say and R226's text does not repeat, is the
model's reading (log 14). -/
def Obligations.AcknowledgmentEndsExchange : Prop :=
  ∀ s : State, s.seqState = .configSent → s.sub = .ack →
    let bad (reason : InvalidReason) (f : Byte) (s : State) : State := exchangeEnded .invalid (invalidRecorded reason f s)
    let checked (k : AckKind) (f : Byte) (ok : Prop) [Decidable ok] : State :=
      if ok then exchangeEnded k s else bad .checksum f s
    exec .fCmpl s = .next (exchangeEnded .complete s) ∧
    (∀ f : Byte, exec (.fUnrec f) s = .next (bad .unrecognized f s)) ∧
    (∀ p : Vector Byte 3, exec (.fMecho p) s = .next (exchangeEnded .echo s)) ∧
    (∀ p : Vector Byte 9, exec (.fIecho p) s = .next (exchangeEnded .echo s)) ∧
    (∀ p : Vector Byte 18, exec (.fDebug p) s = .next (checked .debug 0x01#8 (s.sum = p[16] ++ p[17]))) ∧
    (∀ p : Vector Byte 44, exec (.fMag p) s = .next (checked .record 0x04#8 (s.sum = p[42] ++ p[43]))) ∧
    (∀ p : Vector Byte 58, exec (.fAll p) s = .next (checked .record 0x05#8 (s.sum = p[56] ++ p[57]))) ∧
    (∀ p : Vector Byte 46, exec (.fMagt p) s = .next (checked .record 0x06#8 (s.sum = p[44] ++ p[45]))) ∧
    (∀ p : Vector Byte 56, exec (.fMagi p) s = .next (checked .record 0x07#8 (s.sum = p[54] ++ p[55]))) ∧
    (∀ es, s.inputs = .rxTimeout :: es → s.pst = .flag →
      step s = .next (bad .absent 0#8 { s with inputs := es, events := s.events + 1 })) ∧
    (∀ es f, s.inputs = .rxTimeout :: es → s.pst = .pay → s.flag = some f →
      step s = .next (bad .short f { s with inputs := es, events := s.events + 1 }))

/-- A whole SETMAG exchange: for every ready state, every legal cycle count and every legal TMRC index, a device that echoes
the three bytes sent and then a Complete marker leaves the engine CONFIGURED with the echo readable (R181, R191, R224 to
R226; the source's round-trip property, 95_test_vectors.md W2). The place of TMRC is the spec's D11, the legal cycle
counts are its parameter of D15, and the two reads of the exchange are its D22. -/
def Obligations.SetmagExchangeConfigures : Prop :=
  ∀ (s : State) (cc : BitVec 16) (tmrc : Byte) (es : List Event), s.ready = true → tmrc.toNat ≤ 13 →
    cc ∉ s.params.ccExcluded →
    s.rxPending = [0x02, cc.extractLsb' 8 8, cc.extractLsb' 0 8, tmrc, 0x0A] →
    s.inputs = .cmdRequest (.setmag (.custom cc tmrc)) :: (List.replicate 10 .txAccept ++ List.replicate 5 .rxByte ++ es) →
    ∃ t, steps 16 s = .next t ∧ t.seqState = .configured ∧ t.cfgMatch = true ∧ t.ackKind = .complete ∧
      t.echoValid = true ∧ t.echoLen = 3 ∧ t.echoBuf[0] = some (cc.extractLsb' 8 8) ∧
      t.echoBuf[1] = some (cc.extractLsb' 0 8) ∧ t.echoBuf[2] = some tmrc ∧ t.lastError = .none ∧ t.rxPending = [] ∧
      t.inputs = es ∧
      ∃ rep, t.log = s.log ++ [.cmdResult .none 0, .txByte 0x01, .txByte (cc.extractLsb' 8 8),
        .txByte (cc.extractLsb' 0 8), .txByte tmrc, .txByte 0, .txByte 0, .txByte 0, .txByte 0, .txByte 0, .txByte 0,
        .sessionEnd rep] ∧ rep.state = .configured

/-- A frame whose result has somewhere to go completes, for every frame and every payload: in Collecting, in the
acknowledgment phase, and in the echo phase of an accepted opcode 1 to 4 with its frame in CMD_BUF. With no read outstanding
the model stops by name, since no rule covers a result there (R241; the stop is log 15). -/
def Obligations.FrameCompletesWithReadOutstanding : Prop :=
  ∀ (i : Instr) (s : State), i.isCommand = false →
    (s.seqState = .collecting → ∃ t, exec i s = .next t) ∧
    (s.seqState = .configSent → s.sub = .ack → ∃ t, exec i s = .next t) ∧
    (s.seqState = .configSent → s.sub = .echo → s.op = 1#8 ∨ s.op = 2#8 ∨ s.op = 3#8 ∨ s.op = 4#8 →
      (∃ buf, s.cmdBuf = some buf) → ∃ t, exec i s = .next t) ∧
    (s.readOutstanding = false → exec i s = .fault .resultWithoutRead)

/-! ### Reset and the status view -/

/-- Reset gives every register the reset value of its rule, keeps the transport's bytes and the output log, and emits
nothing (R300, R301, R47 and the reset values of 10_state.md, which are the spec's D38, D39; what else stays is log 18). -/
def Obligations.ResetRestoresEveryRegister : Prop :=
  ∀ (s : State) (es : List Event), s.inputs = .reset :: es →
    ∃ t, step s = .next t ∧
      t.pst = .idle ∧ t.flag = none ∧ t.idx = 0 ∧ t.plen = 0 ∧ (∀ k : Fin 58, t.pbuf[k] = none) ∧ t.sum = 0 ∧
      t.cmdBuf = none ∧ t.txIdx = 10 ∧ t.seqState = .idle ∧ t.sub = .tx ∧ t.op = 0 ∧ t.mode = .none ∧ t.mask = 0 ∧
      t.recCount = 0 ∧ t.invCount = 0 ∧ t.expected = 0 ∧ t.expValid = false ∧ t.missing = 0 ∧
      (∀ k : Fin 9, t.echoBuf[k] = none) ∧ t.echoLen = 0 ∧ t.echoFlag = 0 ∧ t.echoValid = false ∧ t.cfgMatch = false ∧
      t.ackKind = .none ∧ t.lastError = .none ∧ t.lastInv = .none ∧ t.lastInvFlag = 0 ∧
      t.viewState = 0x00 ∧ t.viewFlags = 0x02 ∧ t.rxReady = false ∧ t.txValid = false ∧
      t.rxPending = s.rxPending ∧ t.log = s.log ∧ t.params = s.params ∧ t.inputs = es

/-- The status view: which number shows which register, the bits its fields stand at, its hardwired bits, which read as 0
(R44), and the numeric encodings of R23, R31, R32, R34, R41, R42 and R271. The view and the encodings are the spec's
D37 and D32; a count shows as it is within its 64 (INV_COUNT: 8) bits (log 6). -/
def Obligations.StatusViewBitPositions : Prop :=
  (∀ s : State,
    (s.statusView.s0 = s.viewState ∧ s.statusView.s1 = s.viewFlags ∧ s.statusView.s2 = s.op ∧
      s.statusView.s3 = s.viewMask ∧ s.statusView.s4 = s.lastError.code ∧ s.statusView.s5 = s.viewLastInv ∧
      (s.recCount < 2 ^ 64 → s.statusView.s6.toNat = s.recCount) ∧
      (s.invCount < 2 ^ 8 → s.statusView.s7.toNat = s.invCount) ∧
      (s.expected < 2 ^ 64 → s.statusView.s8.toNat = s.expected) ∧
      (-(2 ^ 63) ≤ s.missing → s.missing < 2 ^ 63 → s.statusView.s9.toInt = s.missing) ∧
      s.statusView.s10 = s.viewEcho ∧ s.statusView.s11 = s.viewAckKind ∧ s.statusView.s12 = s.viewParser) ∧
    (s.viewState.extractLsb' 0 4 = s.seqState.code ∧ s.viewState.extractLsb' 4 2 = s.sub.code ∧
      s.viewState.extractLsb' 6 2 = s.mode.code) ∧
    (s.viewFlags[0] = s.busy ∧ s.viewFlags[1] = s.ready ∧ s.viewFlags[2] = s.done ∧ s.viewFlags[3] = s.cfgOk ∧
      s.viewFlags[4] = s.abort ∧ s.viewFlags[5] = s.echoValid ∧ s.viewFlags[6] = s.expValid ∧
      s.viewFlags[7] = s.cfgMatch) ∧
    (s.viewMask.extractLsb' 0 4 = s.mask ∧ s.viewMask.extractLsb' 4 4 = 0) ∧
    (s.viewLastInv.extractLsb' 0 3 = s.lastInv.code ∧ s.viewLastInv.extractLsb' 3 5 = 0 ∧
      s.viewLastInv.extractLsb' 8 8 = s.lastInvFlag) ∧
    (s.viewEcho.extractLsb' 0 8 = s.echoFlag ∧ s.viewEcho.extractLsb' 8 4 = BitVec.ofNat 4 s.echoLen ∧
      s.viewEcho.extractLsb' 12 4 = 0 ∧
      ∀ (k : Fin 9) (b : Byte), s.echoBuf[k] = some b → s.echoValid = true → k.val < s.echoLen →
        s.viewEcho.extractLsb' (16 + 8 * k.val) 8 = b) ∧
    (s.viewAckKind.extractLsb' 0 3 = s.ackKind.code ∧ s.viewAckKind.extractLsb' 3 5 = 0) ∧
    (s.viewParser.extractLsb' 0 2 = s.pst.code ∧ s.viewParser.extractLsb' 2 6 = BitVec.ofNat 6 s.idx ∧
      ∀ b : Byte, s.flag = some b → s.viewParser.extractLsb' 8 8 = b)) ∧
  (ParserState.code .idle = 0 ∧ ParserState.code .flag = 1 ∧ ParserState.code .pay = 2) ∧
  (SeqState.code .idle = 0 ∧ SeqState.code .configSent = 1 ∧ SeqState.code .configured = 2 ∧
    SeqState.code .configFailed = 3 ∧ SeqState.code .measCmdSent = 4 ∧ SeqState.code .collecting = 5 ∧
    SeqState.code .complete = 6 ∧ SeqState.code .aborted = 7 ∧ SeqState.code .cmdSent = 8) ∧
  (Phase.code .tx = 0 ∧ Phase.code .echo = 1 ∧ Phase.code .ack = 2) ∧
  (Mode.code .none = 0 ∧ Mode.code .single = 1 ∧ Mode.code .cont = 2 ∧ Mode.code .stream = 3) ∧
  (AckKind.code .none = 0 ∧ AckKind.code .complete = 1 ∧ AckKind.code .record = 2 ∧ AckKind.code .debug = 3 ∧
    AckKind.code .echo = 4 ∧ AckKind.code .invalid = 5) ∧
  (LastInvalid.code .none = 0 ∧ LastInvalid.code (.reason .absent) = 1 ∧ LastInvalid.code (.reason .short) = 2 ∧
    LastInvalid.code (.reason .checksum) = 3 ∧ LastInvalid.code (.reason .unrecognized) = 4) ∧
  (ErrorCode.code .none = 0 ∧ ErrorCode.code .invalidFieldIndex = 1 ∧ ErrorCode.code .configMismatch = 2 ∧
    ErrorCode.code .invalidFrame = 3 ∧ ErrorCode.code .tooManyInvalidFrames = 4 ∧
    ErrorCode.code .unrecognizedPacketFlag = 5 ∧ ErrorCode.code .busy = 6 ∧ ErrorCode.code .unknownOpcode = 7)

/-! ### Whole-machine rules -/

/-- The invariant holds right after reset. -/
def Obligations.InvariantHoldsAtReset : Prop := State.reset.inv = true

/-- Every step keeps the invariant (the parts of `State.inv` cite their rules; R20, R30 to R42, R46, R241). -/
def Obligations.StepKeepsInvariant : Prop :=
  ∀ s t : State, s.inv = true → step s = .next t → t.inv = true

/-- In every state that meets the invariant a step answers a next state: the engine has no fatal error (R270), no rule reads
an unwritten register (R46) and no result arrives without an outstanding read (R241). -/
def Obligations.NoStepFaults : Prop := ∀ s : State, s.inv = true → safeStep s

/-- No transition but those of the table of R220, each with its event and its condition (parts of the table are the spec's D22, D24, D25). -/
def Obligations.OnlyTabulatedTransitions : Prop :=
  ∀ s t : State, step s = .next t → edge s t

/-- The output log only grows, reset included, and each kind of entry has its one cause: a record in Collecting with the
running index, a debug in Collecting, a session end by leaving a busy state for a reporting one, a byte on the outbound
stream by a TxAccept that takes CMD_BUF[TX_IDX] while it is offered, and an answer by a request (R47, R61, R180, R191,
R230, R236, R237; the log is the spec's D45). -/
def Obligations.OutputLogOnlyGrows : Prop :=
  ∀ s t : State, step s = .next t →
    ∃ outs, t.log = s.log ++ outs ∧
      (∀ n r, .record n r ∈ outs → s.seqState = .collecting ∧ n = s.recCount ∧ t.recCount = s.recCount + 1) ∧
      (∀ d, .debug d ∈ outs → s.seqState = .collecting ∧ t.seqState = .collecting) ∧
      (∀ rep, .sessionEnd rep ∈ outs → s.busy = true ∧ t.done = true ∧ rep.state = t.seqState ∧
        rep.records = t.recCount ∧ rep.invalid = t.invCount ∧ rep.error = t.lastError) ∧
      (∀ b, .txByte b ∈ outs → outs = [.txByte b] ∧ nextIs s .txAccept = true ∧ s.txValid = true ∧
        ∃ buf, s.cmdBuf = some buf ∧ buf[s.txIdx]? = some b) ∧
      (∀ c f, .cmdResult c f ∈ outs → outs = [.cmdResult c f] ∧ ∃ r es, s.inputs = .cmdRequest r :: es)

/-- The only ways out of BUSY are the session's own end and Reset; no request ends a session (R221, R239, R240). -/
def Obligations.BusyLeftOnlyByEndOrReset : Prop :=
  ∀ s t : State, s.busy = true → t.busy = false → step s = .next t →
    nextIs s .reset = true ∨ (s.seqState = .cmdSent ∧ t.seqState = .idle ∧ nextIs s .txAccept = true) ∨
    ((nextIs s .rxByte = true ∨ nextIs s .rxTimeout = true) ∧
      ∃ outs rep, t.log = s.log ++ outs ++ [.sessionEnd rep] ∧ rep.state = t.seqState)

/-- MASK, OP and CMD_BUF are written only at the acceptance of a command in a ready state and by Reset, MASK only by SINGLE
and CONT, which write their own mask (R30, R33, R35, R222). The last two clauses speak of the model's own fields: no rule
writes the parameters, which R45 calls no state and the model holds in State (log 8), and a step takes exactly the first
event of the list of events to come, the model's choice (log 1). -/
def Obligations.CommandRegistersWrittenOnlyAtAcceptance : Prop :=
  ∀ s t : State, step s = .next t → nextIs s .reset = false →
    (t.mask ≠ s.mask → s.ready = true ∧ ∃ es, s.inputs = .cmdRequest (.single t.mask) :: es ∨
      ∃ avg rate dur, s.inputs = .cmdRequest (.cont t.mask avg rate dur) :: es) ∧
    (t.op ≠ s.op ∨ t.cmdBuf ≠ s.cmdBuf → s.ready = true ∧ t.busy = true ∧ ∃ r es, s.inputs = .cmdRequest r :: es) ∧
    t.params = s.params ∧ t.inputs = s.inputs.tail

/-- LAST_ERROR is cleared by the acceptance of a command, by Reset, and otherwise written only by the mismatch at the end of
an exchange and by an invalid frame in Collecting (R279, the spec's D32). -/
def Obligations.LastErrorWriters : Prop :=
  ∀ s t : State, step s = .next t → t.lastError ≠ s.lastError →
    (nextIs s .reset = true ∧ t.lastError = .none) ∨
    (s.ready = true ∧ t.busy = true ∧ t.lastError = .none) ∨
    (s.seqState = .configSent ∧ t.seqState = .configFailed ∧ t.lastError = .configMismatch) ∨
    (s.seqState = .collecting ∧ t.invCount = s.invCount + 1 ∧
      (t.lastError = .invalidFrame ∨ t.lastError = .unrecognizedPacketFlag ∨
        (t.lastError = .tooManyInvalidFrames ∧ t.seqState = .aborted)))

/-- LAST_INV and LAST_INV_FLAG hold the most recent Invalid result: whichever phase takes it records it, and otherwise they
change only by Reset and by the acceptance of a command, which clear them (R42, R222, R274; that the acknowledgment phase
is no exception is the model's reading, log 14). -/
def Obligations.LastInvHoldsMostRecentInvalid : Prop :=
  (∀ (s t : State) (reason : InvalidReason) (f : Byte), deliver (.invalid reason f) s = .next t →
    t.lastInv = .reason reason ∧ t.lastInvFlag = f) ∧
  (∀ s t : State, step s = .next t →
    (t.lastInv = s.lastInv ∧ t.lastInvFlag = s.lastInvFlag) ∨
    (t.lastInv = .none ∧ t.lastInvFlag = 0 ∧ (nextIs s .reset = true ∨ (s.ready = true ∧ t.busy = true))) ∨
    (readEnds s = true ∧ ∃ reason, t.lastInv = .reason reason))
end

