-- ==== Sys2Proof/Laws/Codec.lean ====
section
/-! SUPPORT. Small lemmas of the codec functions: big-endian integers, byte sums, byte concatenations. -/

namespace Sys2Proof.Machine

theorem foldl_beNat (bs : List Byte) (a : Nat) :
    bs.foldl (fun acc b => acc * 256 + b.toNat) a = a * 256 ^ bs.length + beNat bs := by
  induction bs generalizing a with
  | nil => simp [beNat]
  | cons b bs ih =>
    have h0 : beNat (b :: bs) = (0 * 256 + b.toNat) * 256 ^ bs.length + beNat bs := by rw [← ih]; rfl
    rw [List.foldl_cons, ih, h0, List.length_cons]
    ring

theorem beNat_cons (b : Byte) (bs : List Byte) : beNat (b :: bs) = b.toNat * 256 ^ bs.length + beNat bs := by
  rw [beNat, List.foldl_cons, foldl_beNat]; simp

theorem beNat_append (as bs : List Byte) : beNat (as ++ bs) = beNat as * 256 ^ bs.length + beNat bs := by
  rw [beNat, List.foldl_append, foldl_beNat]; rfl

theorem beNat_lt (bs : List Byte) : beNat bs < 256 ^ bs.length := by
  induction bs with
  | nil => simp [beNat]
  | cons b bs ih =>
    rw [beNat_cons, List.length_cons, pow_succ]
    have := b.isLt
    nlinarith [pow_pos (show (0 : Nat) < 256 by norm_num) bs.length]

@[simp] theorem bytesBE_length (v n : Nat) : (bytesBE v n).length = n := by simp [bytesBE]

/-- The two bytes of a 16-bit operand. -/
theorem bytesBE_two (cc : BitVec 16) : bytesBE cc.toNat 2 = [cc.extractLsb' 8 8, cc.extractLsb' 0 8] := by
  simp only [bytesBE, List.range_succ, List.range_zero, List.nil_append, List.map_cons, List.map_nil, List.cons_append]
  rfl

/-- The six bytes of a 48-bit operand. -/
theorem bytesBE_six (d : BitVec 48) : bytesBE d.toNat 6 = [d.extractLsb' 40 8, d.extractLsb' 32 8, d.extractLsb' 24 8,
    d.extractLsb' 16 8, d.extractLsb' 8 8, d.extractLsb' 0 8] := by
  simp only [bytesBE, List.range_succ, List.range_zero, List.nil_append, List.map_cons, List.map_nil, List.cons_append]
  rfl

@[simp] theorem byteSum_nil : byteSum [] = 0 := rfl

theorem byteSum_cons (a : Byte) (b : List Byte) : byteSum (a :: b) = a.toNat + byteSum b := by simp [byteSum]

theorem byteSum_append (a b : List Byte) : byteSum (a ++ b) = byteSum a + byteSum b := by simp [byteSum]

theorem byteSum_le (bs : List Byte) : byteSum bs ≤ 255 * bs.length := by
  induction bs with
  | nil => simp
  | cons b bs ih =>
    have := b.isLt
    rw [byteSum_cons, List.length_cons]
    omega

theorem append2_toNat (a b : Byte) : (show BitVec 16 from a ++ b).toNat = a.toNat * 256 + b.toNat := by
  have h := BitVec.toNat_append a b
  rw [← Nat.shiftLeft_add_eq_or_of_lt b.isLt, Nat.shiftLeft_eq] at h
  exact h

theorem append3_toNat (a b c : Byte) :
    (show BitVec 24 from a ++ b ++ c).toNat = (a.toNat * 256 + b.toNat) * 256 + c.toNat := by
  have h := BitVec.toNat_append (show BitVec 16 from a ++ b) c
  rw [← Nat.shiftLeft_add_eq_or_of_lt c.isLt, Nat.shiftLeft_eq, append2_toNat] at h
  exact h

theorem append4_toNat (a b c d : Byte) :
    (show BitVec 32 from a ++ b ++ c ++ d).toNat = ((a.toNat * 256 + b.toNat) * 256 + c.toNat) * 256 + d.toNat := by
  have h := BitVec.toNat_append (show BitVec 24 from a ++ b ++ c) d
  rw [← Nat.shiftLeft_add_eq_or_of_lt d.isLt, Nat.shiftLeft_eq, append3_toNat] at h
  exact h

/-- A 16-bit field of a payload is its two bytes. -/
theorem beField_pair (p : List Byte) (k : Nat) (a b : Byte) (ha : p[k]? = some a) (hb : p[k + 1]? = some b) :
    beField 16 p k 2 = a ++ b := by
  have hs : slice p k 2 = [a, b] := by
    apply List.ext_getElem?
    intro i
    simp only [slice, List.getElem?_take, List.getElem?_drop]
    rcases i with _ | _ | i
    · simpa using ha
    · simpa using hb
    · simp
  rw [beField, hs]
  apply BitVec.eq_of_toNat_eq
  have := a.isLt
  have := b.isLt
  refine Eq.trans ?_ (append2_toNat a b).symm
  simp only [beNat, List.foldl, BitVec.toNat_ofNat]
  omega

/-- The same for a payload of fixed length. -/
theorem beField_vector {n : Nat} (p : Vector Byte n) (k : Nat) (h : k + 1 < n) :
    beField 16 p.toList k 2 = p[k] ++ p[k + 1] := by
  apply beField_pair <;> simp

/-- The decode of a whole bit vector is its signed value. -/
theorem tc_toInt (w : Nat) (v : BitVec (w + 1)) : tc v.toNat (w + 1) = v.toInt := by
  unfold tc
  rw [BitVec.toInt_eq_msb_cond, BitVec.msb_eq_getLsbD_last]
  simp [BitVec.getLsbD]

theorem imuBadField_eq_none {f : Vector Byte 9} :
    imuBadField f = none ↔ ∀ k : Fin 9, f[k].toNat < Config.imuFieldCount[k] := by
  unfold imuBadField
  rw [List.find?_eq_none]
  simp

end Sys2Proof.Machine
end

