-- ==== Sys2Proof/Laws/Commands.lean ====
section
/-! SUPPORT. Everything the command port can do, once, and the shape of its frames. -/

namespace Sys2Proof.Machine

theorem State.not_busy_of_ready {s : State} (h : s.ready = true) : s.busy = false := by simpa [State.ready] using h

section port
variable {op : Byte} {bad : Option Byte} {frame : Vector Byte 10} {start : State → State} {s t : State}

theorem commandPort_busy (h : s.busy = true) : commandPort op bad frame start s = .next (s.answer .busy 0) := by
  simp [commandPort, h]

theorem commandPort_bad {field : Byte} (h : s.ready = true) :
    commandPort op (some field) frame start s = .next (s.answer .invalidFieldIndex field) := by
  simp [commandPort, State.not_busy_of_ready h]

theorem commandPort_accept (h : s.ready = true) :
    commandPort op none frame start s = .next ((start (s.accept op frame)).answer .none 0) := by
  simp [commandPort, State.not_busy_of_ready h]

/-- A request is answered with an error and nothing else, or accepted in a ready state. -/
theorem commandPort_cases (h : commandPort op bad frame start s = .next t) :
    (∃ c f, c ≠ .none ∧ t = s.answer c f) ∨
    (s.ready = true ∧ bad = none ∧ t = (start (s.accept op frame)).answer .none 0) := by
  unfold commandPort at h
  split at h
  · cases h; exact .inl ⟨_, _, by simp, rfl⟩
  · rename_i hb
    split at h <;> cases h
    · exact .inl ⟨_, _, by simp, rfl⟩
    · exact .inr ⟨by simpa [State.ready] using hb, rfl, rfl⟩

/-- The command port always answers a next state. -/
theorem commandPort_next : ∃ u, commandPort op bad frame start s = .next u := by
  unfold commandPort
  split
  · exact ⟨_, rfl⟩
  · split <;> exact ⟨_, rfl⟩

end port

theorem ccValid_iff {p : Params} {cc : BitVec 16} : ccValid p cc = true ↔ cc ∉ p.ccExcluded := by simp [ccValid]

/-- Which field a SETMAG request fails with. -/
theorem magBadField_eq (p : Params) (cc : BitVec 16) (tmrc : Byte) :
    magBadField p cc tmrc = if 13 < tmrc.toNat then some 1 else if cc ∈ p.ccExcluded then some 2 else none := by
  simp only [magBadField, ccValid_iff]
  split_ifs <;> rfl

/-- A frame byte by byte. -/
theorem mkFrame_eq (op : Byte) (l : List Byte) :
    mkFrame op l = #v[op, l.getD 0 0, l.getD 1 0, l.getD 2 0, l.getD 3 0, l.getD 4 0, l.getD 5 0, l.getD 6 0,
      l.getD 7 0, l.getD 8 0] := rfl

/-- A request with an instruction has a command. -/
theorem instr_isCommand {r : Request} {i : Instr} (h : r.instr = some i) : i.isCommand = true := by
  unfold Request.instr at h
  split at h <;> cases h <;> rfl

/-- The opcode a command puts in OP. -/
def opcodeOf : Instr → Byte
  | .setmag _ _ | .setmagDefault => 0x01#8
  | .setimu _ | .setimuDefault => 0x02#8
  | .getmag => 0x03#8
  | .getimu => 0x04#8
  | .single _ => 0x05#8
  | .cont _ _ _ _ => 0x06#8
  | .sendavail => 0x07#8
  | .stopall => 0x08#8
  | .fCmpl | .fDebug _ | .fMecho _ | .fIecho _ | .fMag _ | .fAll _ | .fMagt _ | .fMagi _ | .fUnrec _ => 0x00#8

/-- The opcode's own part of a session start. -/
def startOf : Instr → State → State
  | .single en, s => s.startSingle en
  | .cont en avg rate dur, s => s.startCont en (expectedCount avg rate dur)
  | .sendavail, s => s.startOther s.params.respSendAvail
  | .stopall, s => s.startOther s.params.respStopAll
  | .setmag _ _, s | .setmagDefault, s | .setimu _, s | .setimuDefault, s | .getmag, s | .getimu, s => s.startConfig
  | .fCmpl, s | .fDebug _, s | .fMecho _, s | .fIecho _, s | .fMag _, s | .fAll _, s | .fMagt _, s | .fMagi _, s
  | .fUnrec _, s => s

/-- Everything a command can do. -/
theorem exec_command_cases {i : Instr} {s t : State} (hc : i.isCommand = true) (h : exec i s = .next t) :
    (∃ c f, c ≠ .none ∧ t = s.answer c f) ∨
    (s.ready = true ∧ ∃ frame : Vector Byte 10, frame[0] = opcodeOf i ∧
      t = (startOf i (s.accept (opcodeOf i) frame)).answer .none 0) := by
  cases i <;> simp only [Instr.isCommand, Bool.false_eq_true] at hc <;>
  · simp only [exec, execSetmag, execSetmagDefault, execSetimu, execSetimuDefault, execGetmag, execGetimu, execSingle,
      execCont, execSendavail, execStopall] at h
    rcases commandPort_cases h with h | ⟨h1, -, h2⟩
    · exact .inl h
    · exact .inr ⟨h1, _, by rfl, h2⟩

/-- The four shapes of a session start. -/
theorem startOf_cases {i : Instr} (s : State) (hc : i.isCommand = true) :
    (startOf i s = s.startConfig ∧
      (opcodeOf i = 1#8 ∨ opcodeOf i = 2#8 ∨ opcodeOf i = 3#8 ∨ opcodeOf i = 4#8)) ∨
    (∃ en, i = .single en ∧ startOf i s = s.startSingle en) ∨
    (∃ en avg rate dur, i = .cont en avg rate dur ∧ startOf i s = s.startCont en (expectedCount avg rate dur)) ∨
    (∃ r, startOf i s = s.startOther r ∧ (opcodeOf i = 7#8 ∨ opcodeOf i = 8#8)) := by
  cases i <;> simp only [Instr.isCommand, Bool.false_eq_true] at hc
  case single en => exact .inr (.inl ⟨en, rfl, rfl⟩)
  case cont en avg rate dur => exact .inr (.inr (.inl ⟨en, avg, rate, dur, rfl, rfl⟩))
  case sendavail => exact .inr (.inr (.inr ⟨_, rfl, .inl rfl⟩))
  case stopall => exact .inr (.inr (.inr ⟨_, rfl, .inr rfl⟩))
  case getmag => exact .inl ⟨rfl, .inr (.inr (.inl rfl))⟩
  case getimu => exact .inl ⟨rfl, .inr (.inr (.inr rfl))⟩
  case setimu => exact .inl ⟨rfl, .inr (.inl rfl)⟩
  case setimuDefault => exact .inl ⟨rfl, .inr (.inl rfl)⟩
  all_goals exact .inl ⟨rfl, .inl rfl⟩

end Sys2Proof.Machine
end

