-- ==== Sys2Proof/Laws/Decode.lean ====
section
/-! SUPPORT. Small lemmas of the decoders' parts. -/

namespace Sys2Proof

theorem takeVec_append {n : Nat} (p : Vector Byte n) (rest : List Byte) :
    takeVec n (p.toList ++ rest) = some (p, rest) := by
  have h : n ≤ (p.toList ++ rest).length := by simp
  rw [takeVec, dif_pos h]
  simp only [Option.some.injEq, Prod.mk.injEq]
  constructor
  · apply Vector.toArray_inj.1
    have : p.toList = p.toArray.toList := rfl
    simp [this]
  · simp

theorem takeVec_some {n : Nat} {bs : List Byte} {p : Vector Byte n} {rest : List Byte}
    (h : takeVec n bs = some (p, rest)) : bs = p.toList ++ rest := by
  unfold takeVec at h
  split at h
  · simp only [Option.some.injEq, Prod.mk.injEq] at h
    obtain ⟨rfl, rfl⟩ := h
    simp [Vector.toList]
  · cases h

theorem takeVec_of_le {n : Nat} {bs : List Byte} (h : n ≤ bs.length) : ∃ p, takeVec n bs = some (p, bs.drop n) := by
  rw [takeVec, dif_pos h]; exact ⟨_, rfl⟩

theorem takeVec_of_lt {n : Nat} {bs : List Byte} (h : bs.length < n) : takeVec n bs = none := by
  rw [takeVec, dif_neg (by omega)]

theorem withPayload_append {n : Nat} (mk : Vector Byte n → Instr) (p : Vector Byte n) (rest : List Byte) :
    withPayload n mk (p.toList ++ rest) = .ok (mk p) rest := by
  rw [withPayload, takeVec_append]

theorem withPayload_ok {n : Nat} {mk : Vector Byte n → Instr} {bs rest : List Byte} {i : Instr}
    (h : withPayload n mk bs = .ok i rest) : ∃ p, i = mk p ∧ bs = p.toList ++ rest := by
  unfold withPayload at h
  split at h
  · rename_i p r e
    cases h
    exact ⟨p, rfl, takeVec_some e⟩
  · cases h

theorem withPayload_of_lt {n : Nat} (mk : Vector Byte n → Instr) {bs : List Byte} (h : bs.length < n) :
    withPayload n mk bs = .bad .tooShort := by
  rw [withPayload, takeVec_of_lt h]

/-- The inbound decoder, on a first byte. -/
theorem decodeFrame_cons (f : Byte) (bs : List Byte) : decodeFrame (f :: bs) =
    if f = 0x0A#8 then .ok .fCmpl bs
    else if f = 0x01#8 then withPayload 18 .fDebug bs
    else if f = 0x02#8 then withPayload 3 .fMecho bs
    else if f = 0x03#8 then withPayload 9 .fIecho bs
    else if f = 0x04#8 then withPayload 44 .fMag bs
    else if f = 0x05#8 then withPayload 58 .fAll bs
    else if f = 0x06#8 then withPayload 46 .fMagt bs
    else if f = 0x07#8 then withPayload 56 .fMagi bs
    else .ok (.fUnrec f) bs := rfl

/-- The outbound decoder, on an opcode and nine payload bytes. -/
theorem decodeCommand_cons (op : Byte) (p : Vector Byte 9) (rest : List Byte) :
    decodeCommand (op :: (p.toList ++ rest)) = decodeOpcode op p rest := by
  rw [decodeCommand, takeVec_append]

/-- A flag byte alone is not a whole frame exactly when it announces a payload. -/
theorem decodeFrame_single_bad {f : Byte} : (∃ e, decodeFrame [f] = .bad e) ↔ 0 < payloadLen f := by
  rw [decodeFrame_cons]
  unfold payloadLen
  constructor
  · rintro ⟨e, h⟩
    split_ifs at h ⊢ <;> simp_all
  · intro h
    split_ifs at h ⊢ <;> first | exact ⟨_, rfl⟩ | simp_all

/-- A decoded frame is of the inbound half. -/
theorem decodeFrame_isCommand {bs rest : List Byte} {i : Instr} (h : decodeFrame bs = .ok i rest) :
    i.isCommand = false := by
  cases bs with
  | nil => cases h
  | cons f bs =>
    rw [decodeFrame_cons] at h
    split at h
    · cases h; rfl
    iterate 7
      split at h
      · obtain ⟨p, rfl, rfl⟩ := withPayload_ok h; rfl
    cases h; rfl

theorem payloadLen_le (f : Byte) : payloadLen f ≤ 58 := by
  unfold payloadLen; split_ifs <;> omega

theorem allZero_iff {l : List Byte} : allZero l = true ↔ l = List.replicate l.length 0#8 := by
  constructor
  · intro h
    simp only [allZero, List.all_eq_true, beq_iff_eq] at h
    exact List.eq_replicate_of_mem h
  · intro h
    rw [allZero, List.all_eq_true]
    intro x hx
    rw [h] at hx
    simpa using List.eq_of_mem_replicate hx

end Sys2Proof
end

