-- ==== Sys2Proof/Laws/Parser.lean ====
section
/-! SUPPORT. What the parser's operations do: the payload buffer, the payload byte, the finished frame. -/

namespace Sys2Proof.Machine

theorem allWritten_append {l : List (Option Byte)} {p : List Byte} (b : Byte) (h : allWritten l = some p) :
    allWritten (l ++ [some b]) = some (p ++ [b]) := by
  induction l generalizing p with
  | nil => cases h; rfl
  | cons a l ih =>
    cases a with
    | none => cases h
    | some a =>
      simp only [allWritten, Option.map_eq_some_iff] at h
      obtain ⟨q, hq, rfl⟩ := h
      simp [allWritten, ih hq]

theorem allWritten_length {l : List (Option Byte)} {q : List Byte} (h : allWritten l = some q) :
    q.length = l.length := by
  induction l generalizing q with
  | nil => cases h; rfl
  | cons a l ih =>
    cases a with
    | none => cases h
    | some a =>
      simp only [allWritten, Option.map_eq_some_iff] at h
      obtain ⟨q', h1, rfl⟩ := h
      simp [ih h1]

@[simp] theorem allWritten_map_some (q : List Byte) : allWritten (q.map some) = some q := by
  induction q with
  | nil => rfl
  | cons a q ih => simp [allWritten, ih]

/-- After a payload byte the buffer holds one byte more. -/
theorem readPayload_store {s : State} {p : List Byte} (f b : Byte) (h : s.idx < 58)
    (hp : s.readPayload s.idx = some p) : (s.storePayload f b h).readPayload (s.idx + 1) = some (p ++ [b]) := by
  have ha := allWritten_append b hp
  unfold State.readPayload
  convert ha using 2
  simp only [State.storePayload, Vector.toList_set]
  rw [List.take_add_one]
  congr 1
  · rw [List.take_set_of_le]; omega
  · simp [h]

/-- A filled buffer reads back what it was filled with. -/
theorem fillPayload_read (buf : Vector (Option Byte) 58) (q : List Byte) (h : q.length ≤ 58) :
    (fillPayload buf q).toList.take q.length = q.map some := by
  apply List.ext_getElem
  · simp [h]
  · intro i h1 h2
    simp at h1 h2
    simp [fillPayload, h2]

@[simp] theorem fillPayload_nil (buf : Vector (Option Byte) 58) : fillPayload buf [] = buf := by
  ext i hi; simp [fillPayload]

theorem fillPayload_snoc (buf : Vector (Option Byte) 58) (q : List Byte) (x : Byte) (h : q.length < 58) :
    (fillPayload buf q).set q.length (some x) = fillPayload buf (q ++ [x]) := by
  apply Vector.ext
  intro i hi
  simp only [fillPayload, Vector.getElem_set, Vector.getElem_ofFn]
  split
  · subst_vars; simp
  · rename_i hne
    rcases Nat.lt_or_ge i q.length with h1 | h1
    · simp [h1, List.getElem?_append_left]
    · have h2 : q[i]? = none := by simp; omega
      have h3 : (q ++ [x])[i]? = none := by simp; omega
      simp [h2, h3]

/-- The result of a checksummed payload whose checksum field is `ck`. -/
theorem finishChecksummed_eq {f : Byte} {p : List Byte} {sum ck : BitVec 16}
    (hck : beField 16 p (payloadLen f - Config.cksumLen) 2 = ck) :
    finishChecksummed f p sum =
      if sum = ck then (if f = 0x01#8 then .debug (slice p 0 16) else .record (decodeRecord f p))
      else .invalid .checksum f := by
  rw [finishChecksummed, hck]

/-- A flag with a payload opens the payload window. -/
theorem onFlagByte_payload {f : Byte} (h : 0 < payloadLen f) (s : State) :
    onFlagByte f s = .next ((s.setFlag f).beginPayload (payloadLen f)) := by
  obtain ⟨e, he⟩ := decodeFrame_single_bad.2 h
  rw [onFlagByte, he]

/-- A payload byte before the last is stored. -/
theorem onPayloadByte_store {s : State} {f b : Byte} (h : s.idx < 58) (hf : s.flag = some f)
    (hne : s.idx + 1 ≠ s.plen) : onPayloadByte b s = .next (s.storePayload f b h) := by
  rw [onPayloadByte]
  simp only [hf]
  rw [dif_pos h, if_neg]
  exact hne

/-- The last payload byte executes the frame. -/
theorem onPayloadByte_last {s : State} {f b : Byte} {p rest : List Byte} {i : Instr} (h : s.idx < 58)
    (hf : s.flag = some f) (he : s.idx + 1 = s.plen) (hp : s.readPayload s.idx = some p)
    (hd : decodeFrame (f :: (p ++ [b])) = .ok i rest) : onPayloadByte b s = exec i (s.storePayload f b h) := by
  have h2 := readPayload_store f b h hp
  cases s
  simp only at h hf he
  subst hf
  subst he
  rw [onPayloadByte]
  simp only
  rw [dif_pos h, if_pos (by rfl), completeFrame]
  simp only at h2
  simp only [State.storePayload] at h2 ⊢
  simp only [h2, hd]

end Sys2Proof.Machine
end

