-- ==== Sys2Proof/Laws/Sequencer.lean ====
section
/-! SUPPORT. Everything the sequencer's operations can do: the delivery of a result, the Collecting loop, the end of a
send. -/

namespace Sys2Proof.Machine

theorem deliver_collecting {s : State} (h : s.seqState = .collecting) (r : Result) :
    deliver r s = .next (collect r s) := by
  rw [deliver, h]

theorem deliver_echo {s : State} (h : s.seqState = .configSent) (h2 : s.sub = .echo) (r : Result) :
    deliver r s = echoPhase r s := by
  rw [deliver, h]; simp only; rw [h2]

theorem deliver_ack {s : State} (h : s.seqState = .configSent) (h2 : s.sub = .ack) (r : Result) :
    deliver r s = .next (ackPhase r s) := by
  rw [deliver, h]; simp only; rw [h2]

/-- A result that goes on reaches the Collecting loop or a phase of a configuration exchange. -/
theorem deliver_cases {r : Result} {s t : State} (h : deliver r s = .next t) :
    (s.seqState = .collecting ∧ t = collect r s) ∨
    (s.seqState = .configSent ∧ s.sub = .echo ∧
      ∃ m, (s.recordEcho r).echoOk r = .ok m ∧ t = { s.recordEcho r with cfgMatch := m, sub := .ack }.startRead) ∨
    (s.seqState = .configSent ∧ s.sub = .ack ∧ t = ackPhase r s) := by
  unfold deliver at h
  split at h
  · cases h; exact .inl ⟨‹_›, rfl⟩
  · split at h
    · unfold echoPhase at h
      simp only at h
      split at h <;> cases h
      exact .inr (.inl ⟨‹_›, ‹_›, _, ‹_›, rfl⟩)
    · cases h; exact .inr (.inr ⟨‹_›, ‹_›, rfl⟩)
    · cases h
  all_goals cases h

@[simp] theorem State.recordAck_invalid (s : State) (reason : InvalidReason) (f : Byte) :
    s.recordAck (.invalid reason f) = { s with ackKind := .invalid, lastInv := .reason reason, lastInvFlag := f } := rfl

theorem State.recordAck_of_not_invalid (s : State) {r : Result} (h : ∀ reason f, r ≠ .invalid reason f) :
    s.recordAck r = { s with ackKind := r.kind } := by
  cases r <;> first | rfl | exact absurd rfl (h _ _)

/-- Everything the acknowledgment phase can do: the kind is recorded, an Invalid result in LAST_INV as well, and the session
ends as CFG_MATCH says. -/
theorem ackPhase_cases (r : Result) (s : State) :
    ∃ li lf, ((∃ reason, r = .invalid reason lf ∧ li = .reason reason) ∨
        ((∀ reason f, r ≠ .invalid reason f) ∧ li = s.lastInv ∧ lf = s.lastInvFlag)) ∧
      let t : State := { s with ackKind := r.kind, lastInv := li, lastInvFlag := lf, sub := .tx }
      ((s.cfgMatch = true ∧ ackPhase r s = t.endSession .configured) ∨
       (s.cfgMatch = false ∧ ackPhase r s = (t.raiseError .configMismatch).endSession .configFailed)) := by
  have h2 : ∀ t : State, t.cfgMatch = s.cfgMatch → { s.recordAck r with sub := .tx } = t →
      ((s.cfgMatch = true ∧ ackPhase r s = t.endSession .configured) ∨
       (s.cfgMatch = false ∧ ackPhase r s = (t.raiseError .configMismatch).endSession .configFailed)) := by
    intro t hm ht
    rw [ackPhase, ht]
    simp only [hm]
    by_cases hc : s.cfgMatch = true
    · exact .inl ⟨hc, if_pos hc⟩
    · exact .inr ⟨by simpa using hc, if_neg hc⟩
  cases r with
  | invalid reason f => exact ⟨_, _, .inl ⟨reason, rfl, rfl⟩, h2 _ rfl rfl⟩
  | complete => exact ⟨_, _, .inr ⟨by simp, rfl, rfl⟩, h2 _ rfl rfl⟩
  | record rec => exact ⟨_, _, .inr ⟨by simp, rfl, rfl⟩, h2 _ rfl rfl⟩
  | debug d => exact ⟨_, _, .inr ⟨by simp, rfl, rfl⟩, h2 _ rfl rfl⟩
  | echo f e => exact ⟨_, _, .inr ⟨by simp, rfl, rfl⟩, h2 _ rfl rfl⟩

/-- Everything the Collecting loop can do with a result. -/
theorem collect_cases (r : Result) (s : State) :
    (∃ rec, r = .record rec ∧
      ((s.mode = .single ∧
        collect r s = ({ s.emit (.record s.recCount rec) with recCount := s.recCount + 1 } : State).endSession .complete) ∨
       (s.mode ≠ .single ∧
        collect r s = ({ s.emit (.record s.recCount rec) with recCount := s.recCount + 1 } : State).startRead))) ∨
    (∃ reason f, r = .invalid reason f ∧
      let t := ({ s with invCount := s.invCount + 1 }.recordInvalid reason f).raiseError (InvalidReason.error reason)
      ((9 < s.invCount + 1 ∧ collect r s = (t.raiseError .tooManyInvalidFrames).endSession .aborted) ∨
       (s.invCount + 1 ≤ 9 ∧ collect r s = t.startRead))) ∨
    (r = .complete ∧ collect r s = s.endSession .complete) ∨
    (∃ d, r = .debug d ∧ collect r s = (s.emit (.debug d)).startRead) ∨
    (∃ f e, r = .echo f e ∧ collect r s = s.startRead) := by
  cases r with
  | complete => exact .inr (.inr (.inl ⟨rfl, rfl⟩))
  | record rec =>
    refine .inl ⟨rec, rfl, ?_⟩
    by_cases h : s.mode = .single
    · exact .inl ⟨h, by rw [collect, collectRecord]; exact if_pos h⟩
    · exact .inr ⟨h, by rw [collect, collectRecord]; exact if_neg h⟩
  | debug d => exact .inr (.inr (.inr (.inl ⟨d, rfl, rfl⟩)))
  | echo f e => exact .inr (.inr (.inr (.inr ⟨f, e, rfl, rfl⟩)))
  | invalid reason f =>
    refine .inr (.inl ⟨reason, f, rfl, ?_⟩)
    by_cases h : 9 < s.invCount + 1
    · exact .inl ⟨h, by rw [collect, collectInvalid]; exact if_pos h⟩
    · exact .inr ⟨by omega, by rw [collect, collectInvalid]; exact if_neg h⟩

/-- Where the end of a send goes, by the acquisition state. -/
theorem sendDone_cases {s : State} (h : s.sending = true) :
    (s.seqState = .configSent ∧ s.sub = .tx ∧ s.sendDone = { s with sub := .echo, pst := .flag }) ∨
    (s.seqState = .measCmdSent ∧ s.sendDone = { s with seqState := .collecting, pst := .flag }) ∨
    (s.seqState = .cmdSent ∧ s.sendDone = { s with seqState := .idle }) := by
  unfold State.sending at h
  split at h
  · rename_i hs
    exact .inl ⟨hs, by simpa using h, by rw [State.sendDone, hs]; rfl⟩
  · rename_i hs
    exact .inr (.inl ⟨hs, by rw [State.sendDone, hs]; rfl⟩)
  · rename_i hs
    exact .inr (.inr ⟨hs, by rw [State.sendDone, hs]⟩)
  all_goals cases h

/-- A result that is no echo never matches. -/
theorem echoOk_of_not_echo {s : State} {r : Result} (h : ∀ f e, r ≠ .echo f e)
    (ho : s.op = 1#8 ∨ s.op = 2#8 ∨ s.op = 3#8 ∨ s.op = 4#8) : s.echoOk r = .ok false := by
  have h1 : ∀ f, r.isEchoOf f = false := by intro f; cases r <;> first | rfl | exact absurd rfl (h _ _)
  have h2 : ∀ f n c, r.matchesSent f n c = .ok false := by
    intro f n c; cases r <;> first | rfl | exact absurd rfl (h _ _)
  simp only [State.echoOk, h1, h2]
  split_ifs <;> first | rfl | simp_all

/-- An echo result has its flag's length. -/
def Result.echoLengthOk (r : Result) : Prop :=
  ∀ f e, r = .echo f e → (f = 0x02#8 ∧ e.length = 3) ∨ (f = 0x03#8 ∧ e.length = 9)

theorem finishChecksummed_echoLengthOk (f : Byte) (p : List Byte) (sum : BitVec 16) :
    (finishChecksummed f p sum).echoLengthOk := by
  intro g e h
  unfold finishChecksummed at h
  split at h
  · split at h <;> cases h
  · cases h

/-- A frame hands exactly one result to the sequencer. -/
theorem exec_frame {i : Instr} (s : State) (hc : i.isCommand = false) :
    ∃ r : Result, exec i s = finishRead r s ∧ r.echoLengthOk := by
  cases i <;> simp only [Instr.isCommand, Bool.true_eq_false] at hc
  case fCmpl => exact ⟨_, rfl, by rintro f e ⟨⟩⟩
  case fUnrec => exact ⟨_, rfl, by rintro f e ⟨⟩⟩
  case fMecho p => exact ⟨_, rfl, by rintro f e ⟨⟩; simp⟩
  case fIecho p => exact ⟨_, rfl, by rintro f e ⟨⟩; simp⟩
  all_goals exact ⟨_, rfl, finishChecksummed_echoLengthOk _ _ _⟩

end Sys2Proof.Machine
end

