-- ==== Sys2Proof/Laws/State.lean ====
section
/-! SUPPORT. What each update of Machine/Ops.lean leaves in each field, by rfl, so that no later proof unfolds a record
update; and the fields after Reset. -/

namespace Sys2Proof.Machine

variable (s : State)

/-! ### emit -/

@[simp] theorem State.emit_pst (o : Output) : (s.emit o).pst = s.pst := rfl
@[simp] theorem State.emit_flag (o : Output) : (s.emit o).flag = s.flag := rfl
@[simp] theorem State.emit_idx (o : Output) : (s.emit o).idx = s.idx := rfl
@[simp] theorem State.emit_plen (o : Output) : (s.emit o).plen = s.plen := rfl
@[simp] theorem State.emit_pbuf (o : Output) : (s.emit o).pbuf = s.pbuf := rfl
@[simp] theorem State.emit_sum (o : Output) : (s.emit o).sum = s.sum := rfl
@[simp] theorem State.emit_cmdBuf (o : Output) : (s.emit o).cmdBuf = s.cmdBuf := rfl
@[simp] theorem State.emit_txIdx (o : Output) : (s.emit o).txIdx = s.txIdx := rfl
@[simp] theorem State.emit_seqState (o : Output) : (s.emit o).seqState = s.seqState := rfl
@[simp] theorem State.emit_sub (o : Output) : (s.emit o).sub = s.sub := rfl
@[simp] theorem State.emit_op (o : Output) : (s.emit o).op = s.op := rfl
@[simp] theorem State.emit_mode (o : Output) : (s.emit o).mode = s.mode := rfl
@[simp] theorem State.emit_mask (o : Output) : (s.emit o).mask = s.mask := rfl
@[simp] theorem State.emit_recCount (o : Output) : (s.emit o).recCount = s.recCount := rfl
@[simp] theorem State.emit_invCount (o : Output) : (s.emit o).invCount = s.invCount := rfl
@[simp] theorem State.emit_expected (o : Output) : (s.emit o).expected = s.expected := rfl
@[simp] theorem State.emit_expValid (o : Output) : (s.emit o).expValid = s.expValid := rfl
@[simp] theorem State.emit_missing (o : Output) : (s.emit o).missing = s.missing := rfl
@[simp] theorem State.emit_echoBuf (o : Output) : (s.emit o).echoBuf = s.echoBuf := rfl
@[simp] theorem State.emit_echoLen (o : Output) : (s.emit o).echoLen = s.echoLen := rfl
@[simp] theorem State.emit_echoFlag (o : Output) : (s.emit o).echoFlag = s.echoFlag := rfl
@[simp] theorem State.emit_echoValid (o : Output) : (s.emit o).echoValid = s.echoValid := rfl
@[simp] theorem State.emit_cfgMatch (o : Output) : (s.emit o).cfgMatch = s.cfgMatch := rfl
@[simp] theorem State.emit_ackKind (o : Output) : (s.emit o).ackKind = s.ackKind := rfl
@[simp] theorem State.emit_lastError (o : Output) : (s.emit o).lastError = s.lastError := rfl
@[simp] theorem State.emit_lastInv (o : Output) : (s.emit o).lastInv = s.lastInv := rfl
@[simp] theorem State.emit_lastInvFlag (o : Output) : (s.emit o).lastInvFlag = s.lastInvFlag := rfl
@[simp] theorem State.emit_rxPending (o : Output) : (s.emit o).rxPending = s.rxPending := rfl
@[simp] theorem State.emit_log (o : Output) : (s.emit o).log = s.log ++ [o] := rfl
@[simp] theorem State.emit_inputs (o : Output) : (s.emit o).inputs = s.inputs := rfl
@[simp] theorem State.emit_events (o : Output) : (s.emit o).events = s.events := rfl
@[simp] theorem State.emit_params (o : Output) : (s.emit o).params = s.params := rfl

/-! ### raiseError -/

@[simp] theorem State.raiseError_pst (e : ErrorCode) : (s.raiseError e).pst = s.pst := rfl
@[simp] theorem State.raiseError_flag (e : ErrorCode) : (s.raiseError e).flag = s.flag := rfl
@[simp] theorem State.raiseError_idx (e : ErrorCode) : (s.raiseError e).idx = s.idx := rfl
@[simp] theorem State.raiseError_plen (e : ErrorCode) : (s.raiseError e).plen = s.plen := rfl
@[simp] theorem State.raiseError_pbuf (e : ErrorCode) : (s.raiseError e).pbuf = s.pbuf := rfl
@[simp] theorem State.raiseError_sum (e : ErrorCode) : (s.raiseError e).sum = s.sum := rfl
@[simp] theorem State.raiseError_cmdBuf (e : ErrorCode) : (s.raiseError e).cmdBuf = s.cmdBuf := rfl
@[simp] theorem State.raiseError_txIdx (e : ErrorCode) : (s.raiseError e).txIdx = s.txIdx := rfl
@[simp] theorem State.raiseError_seqState (e : ErrorCode) : (s.raiseError e).seqState = s.seqState := rfl
@[simp] theorem State.raiseError_sub (e : ErrorCode) : (s.raiseError e).sub = s.sub := rfl
@[simp] theorem State.raiseError_op (e : ErrorCode) : (s.raiseError e).op = s.op := rfl
@[simp] theorem State.raiseError_mode (e : ErrorCode) : (s.raiseError e).mode = s.mode := rfl
@[simp] theorem State.raiseError_mask (e : ErrorCode) : (s.raiseError e).mask = s.mask := rfl
@[simp] theorem State.raiseError_recCount (e : ErrorCode) : (s.raiseError e).recCount = s.recCount := rfl
@[simp] theorem State.raiseError_invCount (e : ErrorCode) : (s.raiseError e).invCount = s.invCount := rfl
@[simp] theorem State.raiseError_expected (e : ErrorCode) : (s.raiseError e).expected = s.expected := rfl
@[simp] theorem State.raiseError_expValid (e : ErrorCode) : (s.raiseError e).expValid = s.expValid := rfl
@[simp] theorem State.raiseError_missing (e : ErrorCode) : (s.raiseError e).missing = s.missing := rfl
@[simp] theorem State.raiseError_echoBuf (e : ErrorCode) : (s.raiseError e).echoBuf = s.echoBuf := rfl
@[simp] theorem State.raiseError_echoLen (e : ErrorCode) : (s.raiseError e).echoLen = s.echoLen := rfl
@[simp] theorem State.raiseError_echoFlag (e : ErrorCode) : (s.raiseError e).echoFlag = s.echoFlag := rfl
@[simp] theorem State.raiseError_echoValid (e : ErrorCode) : (s.raiseError e).echoValid = s.echoValid := rfl
@[simp] theorem State.raiseError_cfgMatch (e : ErrorCode) : (s.raiseError e).cfgMatch = s.cfgMatch := rfl
@[simp] theorem State.raiseError_ackKind (e : ErrorCode) : (s.raiseError e).ackKind = s.ackKind := rfl
@[simp] theorem State.raiseError_lastError (e : ErrorCode) : (s.raiseError e).lastError = e := rfl
@[simp] theorem State.raiseError_lastInv (e : ErrorCode) : (s.raiseError e).lastInv = s.lastInv := rfl
@[simp] theorem State.raiseError_lastInvFlag (e : ErrorCode) : (s.raiseError e).lastInvFlag = s.lastInvFlag := rfl
@[simp] theorem State.raiseError_rxPending (e : ErrorCode) : (s.raiseError e).rxPending = s.rxPending := rfl
@[simp] theorem State.raiseError_log (e : ErrorCode) : (s.raiseError e).log = s.log := rfl
@[simp] theorem State.raiseError_inputs (e : ErrorCode) : (s.raiseError e).inputs = s.inputs := rfl
@[simp] theorem State.raiseError_events (e : ErrorCode) : (s.raiseError e).events = s.events := rfl
@[simp] theorem State.raiseError_params (e : ErrorCode) : (s.raiseError e).params = s.params := rfl

/-! ### recordInvalid -/

@[simp] theorem State.recordInvalid_pst (r : InvalidReason) (f : Byte) : (s.recordInvalid r f).pst = s.pst := rfl
@[simp] theorem State.recordInvalid_flag (r : InvalidReason) (f : Byte) : (s.recordInvalid r f).flag = s.flag := rfl
@[simp] theorem State.recordInvalid_idx (r : InvalidReason) (f : Byte) : (s.recordInvalid r f).idx = s.idx := rfl
@[simp] theorem State.recordInvalid_plen (r : InvalidReason) (f : Byte) : (s.recordInvalid r f).plen = s.plen := rfl
@[simp] theorem State.recordInvalid_pbuf (r : InvalidReason) (f : Byte) : (s.recordInvalid r f).pbuf = s.pbuf := rfl
@[simp] theorem State.recordInvalid_sum (r : InvalidReason) (f : Byte) : (s.recordInvalid r f).sum = s.sum := rfl
@[simp] theorem State.recordInvalid_cmdBuf (r : InvalidReason) (f : Byte) :
    (s.recordInvalid r f).cmdBuf = s.cmdBuf := rfl
@[simp] theorem State.recordInvalid_txIdx (r : InvalidReason) (f : Byte) :
    (s.recordInvalid r f).txIdx = s.txIdx := rfl
@[simp] theorem State.recordInvalid_seqState (r : InvalidReason) (f : Byte) :
    (s.recordInvalid r f).seqState = s.seqState := rfl
@[simp] theorem State.recordInvalid_sub (r : InvalidReason) (f : Byte) : (s.recordInvalid r f).sub = s.sub := rfl
@[simp] theorem State.recordInvalid_op (r : InvalidReason) (f : Byte) : (s.recordInvalid r f).op = s.op := rfl
@[simp] theorem State.recordInvalid_mode (r : InvalidReason) (f : Byte) : (s.recordInvalid r f).mode = s.mode := rfl
@[simp] theorem State.recordInvalid_mask (r : InvalidReason) (f : Byte) : (s.recordInvalid r f).mask = s.mask := rfl
@[simp] theorem State.recordInvalid_recCount (r : InvalidReason) (f : Byte) :
    (s.recordInvalid r f).recCount = s.recCount := rfl
@[simp] theorem State.recordInvalid_invCount (r : InvalidReason) (f : Byte) :
    (s.recordInvalid r f).invCount = s.invCount := rfl
@[simp] theorem State.recordInvalid_expected (r : InvalidReason) (f : Byte) :
    (s.recordInvalid r f).expected = s.expected := rfl
@[simp] theorem State.recordInvalid_expValid (r : InvalidReason) (f : Byte) :
    (s.recordInvalid r f).expValid = s.expValid := rfl
@[simp] theorem State.recordInvalid_missing (r : InvalidReason) (f : Byte) :
    (s.recordInvalid r f).missing = s.missing := rfl
@[simp] theorem State.recordInvalid_echoBuf (r : InvalidReason) (f : Byte) :
    (s.recordInvalid r f).echoBuf = s.echoBuf := rfl
@[simp] theorem State.recordInvalid_echoLen (r : InvalidReason) (f : Byte) :
    (s.recordInvalid r f).echoLen = s.echoLen := rfl
@[simp] theorem State.recordInvalid_echoFlag (r : InvalidReason) (f : Byte) :
    (s.recordInvalid r f).echoFlag = s.echoFlag := rfl
@[simp] theorem State.recordInvalid_echoValid (r : InvalidReason) (f : Byte) :
    (s.recordInvalid r f).echoValid = s.echoValid := rfl
@[simp] theorem State.recordInvalid_cfgMatch (r : InvalidReason) (f : Byte) :
    (s.recordInvalid r f).cfgMatch = s.cfgMatch := rfl
@[simp] theorem State.recordInvalid_ackKind (r : InvalidReason) (f : Byte) :
    (s.recordInvalid r f).ackKind = s.ackKind := rfl
@[simp] theorem State.recordInvalid_lastError (r : InvalidReason) (f : Byte) :
    (s.recordInvalid r f).lastError = s.lastError := rfl
@[simp] theorem State.recordInvalid_lastInv (r : InvalidReason) (f : Byte) :
    (s.recordInvalid r f).lastInv = .reason r := rfl
@[simp] theorem State.recordInvalid_lastInvFlag (r : InvalidReason) (f : Byte) :
    (s.recordInvalid r f).lastInvFlag = f := rfl
@[simp] theorem State.recordInvalid_rxPending (r : InvalidReason) (f : Byte) :
    (s.recordInvalid r f).rxPending = s.rxPending := rfl
@[simp] theorem State.recordInvalid_log (r : InvalidReason) (f : Byte) : (s.recordInvalid r f).log = s.log := rfl
@[simp] theorem State.recordInvalid_inputs (r : InvalidReason) (f : Byte) :
    (s.recordInvalid r f).inputs = s.inputs := rfl
@[simp] theorem State.recordInvalid_events (r : InvalidReason) (f : Byte) :
    (s.recordInvalid r f).events = s.events := rfl
@[simp] theorem State.recordInvalid_params (r : InvalidReason) (f : Byte) :
    (s.recordInvalid r f).params = s.params := rfl

/-! ### startRead -/

@[simp] theorem State.startRead_pst : s.startRead.pst = .flag := rfl
@[simp] theorem State.startRead_flag : s.startRead.flag = s.flag := rfl
@[simp] theorem State.startRead_idx : s.startRead.idx = s.idx := rfl
@[simp] theorem State.startRead_plen : s.startRead.plen = s.plen := rfl
@[simp] theorem State.startRead_pbuf : s.startRead.pbuf = s.pbuf := rfl
@[simp] theorem State.startRead_sum : s.startRead.sum = s.sum := rfl
@[simp] theorem State.startRead_cmdBuf : s.startRead.cmdBuf = s.cmdBuf := rfl
@[simp] theorem State.startRead_txIdx : s.startRead.txIdx = s.txIdx := rfl
@[simp] theorem State.startRead_seqState : s.startRead.seqState = s.seqState := rfl
@[simp] theorem State.startRead_sub : s.startRead.sub = s.sub := rfl
@[simp] theorem State.startRead_op : s.startRead.op = s.op := rfl
@[simp] theorem State.startRead_mode : s.startRead.mode = s.mode := rfl
@[simp] theorem State.startRead_mask : s.startRead.mask = s.mask := rfl
@[simp] theorem State.startRead_recCount : s.startRead.recCount = s.recCount := rfl
@[simp] theorem State.startRead_invCount : s.startRead.invCount = s.invCount := rfl
@[simp] theorem State.startRead_expected : s.startRead.expected = s.expected := rfl
@[simp] theorem State.startRead_expValid : s.startRead.expValid = s.expValid := rfl
@[simp] theorem State.startRead_missing : s.startRead.missing = s.missing := rfl
@[simp] theorem State.startRead_echoBuf : s.startRead.echoBuf = s.echoBuf := rfl
@[simp] theorem State.startRead_echoLen : s.startRead.echoLen = s.echoLen := rfl
@[simp] theorem State.startRead_echoFlag : s.startRead.echoFlag = s.echoFlag := rfl
@[simp] theorem State.startRead_echoValid : s.startRead.echoValid = s.echoValid := rfl
@[simp] theorem State.startRead_cfgMatch : s.startRead.cfgMatch = s.cfgMatch := rfl
@[simp] theorem State.startRead_ackKind : s.startRead.ackKind = s.ackKind := rfl
@[simp] theorem State.startRead_lastError : s.startRead.lastError = s.lastError := rfl
@[simp] theorem State.startRead_lastInv : s.startRead.lastInv = s.lastInv := rfl
@[simp] theorem State.startRead_lastInvFlag : s.startRead.lastInvFlag = s.lastInvFlag := rfl
@[simp] theorem State.startRead_rxPending : s.startRead.rxPending = s.rxPending := rfl
@[simp] theorem State.startRead_log : s.startRead.log = s.log := rfl
@[simp] theorem State.startRead_inputs : s.startRead.inputs = s.inputs := rfl
@[simp] theorem State.startRead_events : s.startRead.events = s.events := rfl
@[simp] theorem State.startRead_params : s.startRead.params = s.params := rfl

/-! ### endRead -/

@[simp] theorem State.endRead_pst : s.endRead.pst = .idle := rfl
@[simp] theorem State.endRead_flag : s.endRead.flag = s.flag := rfl
@[simp] theorem State.endRead_idx : s.endRead.idx = s.idx := rfl
@[simp] theorem State.endRead_plen : s.endRead.plen = s.plen := rfl
@[simp] theorem State.endRead_pbuf : s.endRead.pbuf = s.pbuf := rfl
@[simp] theorem State.endRead_sum : s.endRead.sum = s.sum := rfl
@[simp] theorem State.endRead_cmdBuf : s.endRead.cmdBuf = s.cmdBuf := rfl
@[simp] theorem State.endRead_txIdx : s.endRead.txIdx = s.txIdx := rfl
@[simp] theorem State.endRead_seqState : s.endRead.seqState = s.seqState := rfl
@[simp] theorem State.endRead_sub : s.endRead.sub = s.sub := rfl
@[simp] theorem State.endRead_op : s.endRead.op = s.op := rfl
@[simp] theorem State.endRead_mode : s.endRead.mode = s.mode := rfl
@[simp] theorem State.endRead_mask : s.endRead.mask = s.mask := rfl
@[simp] theorem State.endRead_recCount : s.endRead.recCount = s.recCount := rfl
@[simp] theorem State.endRead_invCount : s.endRead.invCount = s.invCount := rfl
@[simp] theorem State.endRead_expected : s.endRead.expected = s.expected := rfl
@[simp] theorem State.endRead_expValid : s.endRead.expValid = s.expValid := rfl
@[simp] theorem State.endRead_missing : s.endRead.missing = s.missing := rfl
@[simp] theorem State.endRead_echoBuf : s.endRead.echoBuf = s.echoBuf := rfl
@[simp] theorem State.endRead_echoLen : s.endRead.echoLen = s.echoLen := rfl
@[simp] theorem State.endRead_echoFlag : s.endRead.echoFlag = s.echoFlag := rfl
@[simp] theorem State.endRead_echoValid : s.endRead.echoValid = s.echoValid := rfl
@[simp] theorem State.endRead_cfgMatch : s.endRead.cfgMatch = s.cfgMatch := rfl
@[simp] theorem State.endRead_ackKind : s.endRead.ackKind = s.ackKind := rfl
@[simp] theorem State.endRead_lastError : s.endRead.lastError = s.lastError := rfl
@[simp] theorem State.endRead_lastInv : s.endRead.lastInv = s.lastInv := rfl
@[simp] theorem State.endRead_lastInvFlag : s.endRead.lastInvFlag = s.lastInvFlag := rfl
@[simp] theorem State.endRead_rxPending : s.endRead.rxPending = s.rxPending := rfl
@[simp] theorem State.endRead_log : s.endRead.log = s.log := rfl
@[simp] theorem State.endRead_inputs : s.endRead.inputs = s.inputs := rfl
@[simp] theorem State.endRead_events : s.endRead.events = s.events := rfl
@[simp] theorem State.endRead_params : s.endRead.params = s.params := rfl

/-! ### setFlag -/

@[simp] theorem State.setFlag_pst (b : Byte) : (s.setFlag b).pst = s.pst := rfl
@[simp] theorem State.setFlag_flag (b : Byte) : (s.setFlag b).flag = some b := rfl
@[simp] theorem State.setFlag_idx (b : Byte) : (s.setFlag b).idx = s.idx := rfl
@[simp] theorem State.setFlag_plen (b : Byte) : (s.setFlag b).plen = s.plen := rfl
@[simp] theorem State.setFlag_pbuf (b : Byte) : (s.setFlag b).pbuf = s.pbuf := rfl
@[simp] theorem State.setFlag_sum (b : Byte) : (s.setFlag b).sum = s.sum := rfl
@[simp] theorem State.setFlag_cmdBuf (b : Byte) : (s.setFlag b).cmdBuf = s.cmdBuf := rfl
@[simp] theorem State.setFlag_txIdx (b : Byte) : (s.setFlag b).txIdx = s.txIdx := rfl
@[simp] theorem State.setFlag_seqState (b : Byte) : (s.setFlag b).seqState = s.seqState := rfl
@[simp] theorem State.setFlag_sub (b : Byte) : (s.setFlag b).sub = s.sub := rfl
@[simp] theorem State.setFlag_op (b : Byte) : (s.setFlag b).op = s.op := rfl
@[simp] theorem State.setFlag_mode (b : Byte) : (s.setFlag b).mode = s.mode := rfl
@[simp] theorem State.setFlag_mask (b : Byte) : (s.setFlag b).mask = s.mask := rfl
@[simp] theorem State.setFlag_recCount (b : Byte) : (s.setFlag b).recCount = s.recCount := rfl
@[simp] theorem State.setFlag_invCount (b : Byte) : (s.setFlag b).invCount = s.invCount := rfl
@[simp] theorem State.setFlag_expected (b : Byte) : (s.setFlag b).expected = s.expected := rfl
@[simp] theorem State.setFlag_expValid (b : Byte) : (s.setFlag b).expValid = s.expValid := rfl
@[simp] theorem State.setFlag_missing (b : Byte) : (s.setFlag b).missing = s.missing := rfl
@[simp] theorem State.setFlag_echoBuf (b : Byte) : (s.setFlag b).echoBuf = s.echoBuf := rfl
@[simp] theorem State.setFlag_echoLen (b : Byte) : (s.setFlag b).echoLen = s.echoLen := rfl
@[simp] theorem State.setFlag_echoFlag (b : Byte) : (s.setFlag b).echoFlag = s.echoFlag := rfl
@[simp] theorem State.setFlag_echoValid (b : Byte) : (s.setFlag b).echoValid = s.echoValid := rfl
@[simp] theorem State.setFlag_cfgMatch (b : Byte) : (s.setFlag b).cfgMatch = s.cfgMatch := rfl
@[simp] theorem State.setFlag_ackKind (b : Byte) : (s.setFlag b).ackKind = s.ackKind := rfl
@[simp] theorem State.setFlag_lastError (b : Byte) : (s.setFlag b).lastError = s.lastError := rfl
@[simp] theorem State.setFlag_lastInv (b : Byte) : (s.setFlag b).lastInv = s.lastInv := rfl
@[simp] theorem State.setFlag_lastInvFlag (b : Byte) : (s.setFlag b).lastInvFlag = s.lastInvFlag := rfl
@[simp] theorem State.setFlag_rxPending (b : Byte) : (s.setFlag b).rxPending = s.rxPending := rfl
@[simp] theorem State.setFlag_log (b : Byte) : (s.setFlag b).log = s.log := rfl
@[simp] theorem State.setFlag_inputs (b : Byte) : (s.setFlag b).inputs = s.inputs := rfl
@[simp] theorem State.setFlag_events (b : Byte) : (s.setFlag b).events = s.events := rfl
@[simp] theorem State.setFlag_params (b : Byte) : (s.setFlag b).params = s.params := rfl

/-! ### beginPayload -/

@[simp] theorem State.beginPayload_pst (n : Nat) : (s.beginPayload n).pst = .pay := rfl
@[simp] theorem State.beginPayload_flag (n : Nat) : (s.beginPayload n).flag = s.flag := rfl
@[simp] theorem State.beginPayload_idx (n : Nat) : (s.beginPayload n).idx = 0 := rfl
@[simp] theorem State.beginPayload_plen (n : Nat) : (s.beginPayload n).plen = n := rfl
@[simp] theorem State.beginPayload_pbuf (n : Nat) : (s.beginPayload n).pbuf = s.pbuf := rfl
@[simp] theorem State.beginPayload_sum (n : Nat) : (s.beginPayload n).sum = 0 := rfl
@[simp] theorem State.beginPayload_cmdBuf (n : Nat) : (s.beginPayload n).cmdBuf = s.cmdBuf := rfl
@[simp] theorem State.beginPayload_txIdx (n : Nat) : (s.beginPayload n).txIdx = s.txIdx := rfl
@[simp] theorem State.beginPayload_seqState (n : Nat) : (s.beginPayload n).seqState = s.seqState := rfl
@[simp] theorem State.beginPayload_sub (n : Nat) : (s.beginPayload n).sub = s.sub := rfl
@[simp] theorem State.beginPayload_op (n : Nat) : (s.beginPayload n).op = s.op := rfl
@[simp] theorem State.beginPayload_mode (n : Nat) : (s.beginPayload n).mode = s.mode := rfl
@[simp] theorem State.beginPayload_mask (n : Nat) : (s.beginPayload n).mask = s.mask := rfl
@[simp] theorem State.beginPayload_recCount (n : Nat) : (s.beginPayload n).recCount = s.recCount := rfl
@[simp] theorem State.beginPayload_invCount (n : Nat) : (s.beginPayload n).invCount = s.invCount := rfl
@[simp] theorem State.beginPayload_expected (n : Nat) : (s.beginPayload n).expected = s.expected := rfl
@[simp] theorem State.beginPayload_expValid (n : Nat) : (s.beginPayload n).expValid = s.expValid := rfl
@[simp] theorem State.beginPayload_missing (n : Nat) : (s.beginPayload n).missing = s.missing := rfl
@[simp] theorem State.beginPayload_echoBuf (n : Nat) : (s.beginPayload n).echoBuf = s.echoBuf := rfl
@[simp] theorem State.beginPayload_echoLen (n : Nat) : (s.beginPayload n).echoLen = s.echoLen := rfl
@[simp] theorem State.beginPayload_echoFlag (n : Nat) : (s.beginPayload n).echoFlag = s.echoFlag := rfl
@[simp] theorem State.beginPayload_echoValid (n : Nat) : (s.beginPayload n).echoValid = s.echoValid := rfl
@[simp] theorem State.beginPayload_cfgMatch (n : Nat) : (s.beginPayload n).cfgMatch = s.cfgMatch := rfl
@[simp] theorem State.beginPayload_ackKind (n : Nat) : (s.beginPayload n).ackKind = s.ackKind := rfl
@[simp] theorem State.beginPayload_lastError (n : Nat) : (s.beginPayload n).lastError = s.lastError := rfl
@[simp] theorem State.beginPayload_lastInv (n : Nat) : (s.beginPayload n).lastInv = s.lastInv := rfl
@[simp] theorem State.beginPayload_lastInvFlag (n : Nat) : (s.beginPayload n).lastInvFlag = s.lastInvFlag := rfl
@[simp] theorem State.beginPayload_rxPending (n : Nat) : (s.beginPayload n).rxPending = s.rxPending := rfl
@[simp] theorem State.beginPayload_log (n : Nat) : (s.beginPayload n).log = s.log := rfl
@[simp] theorem State.beginPayload_inputs (n : Nat) : (s.beginPayload n).inputs = s.inputs := rfl
@[simp] theorem State.beginPayload_events (n : Nat) : (s.beginPayload n).events = s.events := rfl
@[simp] theorem State.beginPayload_params (n : Nat) : (s.beginPayload n).params = s.params := rfl

/-! ### storePayload -/

@[simp] theorem State.storePayload_pst (f b : Byte) (h : s.idx < 58) : (s.storePayload f b h).pst = s.pst := rfl
@[simp] theorem State.storePayload_flag (f b : Byte) (h : s.idx < 58) : (s.storePayload f b h).flag = s.flag := rfl
@[simp] theorem State.storePayload_idx (f b : Byte) (h : s.idx < 58) : (s.storePayload f b h).idx = s.idx + 1 := rfl
@[simp] theorem State.storePayload_plen (f b : Byte) (h : s.idx < 58) : (s.storePayload f b h).plen = s.plen := rfl
@[simp] theorem State.storePayload_pbuf (f b : Byte) (h : s.idx < 58) :
    (s.storePayload f b h).pbuf = s.pbuf.set s.idx (some b) := rfl
@[simp] theorem State.storePayload_sum (f b : Byte) (h : s.idx < 58) :
    (s.storePayload f b h).sum = s.nextSum f b := rfl
@[simp] theorem State.storePayload_cmdBuf (f b : Byte) (h : s.idx < 58) :
    (s.storePayload f b h).cmdBuf = s.cmdBuf := rfl
@[simp] theorem State.storePayload_txIdx (f b : Byte) (h : s.idx < 58) : (s.storePayload f b h).txIdx = s.txIdx := rfl
@[simp] theorem State.storePayload_seqState (f b : Byte) (h : s.idx < 58) :
    (s.storePayload f b h).seqState = s.seqState := rfl
@[simp] theorem State.storePayload_sub (f b : Byte) (h : s.idx < 58) : (s.storePayload f b h).sub = s.sub := rfl
@[simp] theorem State.storePayload_op (f b : Byte) (h : s.idx < 58) : (s.storePayload f b h).op = s.op := rfl
@[simp] theorem State.storePayload_mode (f b : Byte) (h : s.idx < 58) : (s.storePayload f b h).mode = s.mode := rfl
@[simp] theorem State.storePayload_mask (f b : Byte) (h : s.idx < 58) : (s.storePayload f b h).mask = s.mask := rfl
@[simp] theorem State.storePayload_recCount (f b : Byte) (h : s.idx < 58) :
    (s.storePayload f b h).recCount = s.recCount := rfl
@[simp] theorem State.storePayload_invCount (f b : Byte) (h : s.idx < 58) :
    (s.storePayload f b h).invCount = s.invCount := rfl
@[simp] theorem State.storePayload_expected (f b : Byte) (h : s.idx < 58) :
    (s.storePayload f b h).expected = s.expected := rfl
@[simp] theorem State.storePayload_expValid (f b : Byte) (h : s.idx < 58) :
    (s.storePayload f b h).expValid = s.expValid := rfl
@[simp] theorem State.storePayload_missing (f b : Byte) (h : s.idx < 58) :
    (s.storePayload f b h).missing = s.missing := rfl
@[simp] theorem State.storePayload_echoBuf (f b : Byte) (h : s.idx < 58) :
    (s.storePayload f b h).echoBuf = s.echoBuf := rfl
@[simp] theorem State.storePayload_echoLen (f b : Byte) (h : s.idx < 58) :
    (s.storePayload f b h).echoLen = s.echoLen := rfl
@[simp] theorem State.storePayload_echoFlag (f b : Byte) (h : s.idx < 58) :
    (s.storePayload f b h).echoFlag = s.echoFlag := rfl
@[simp] theorem State.storePayload_echoValid (f b : Byte) (h : s.idx < 58) :
    (s.storePayload f b h).echoValid = s.echoValid := rfl
@[simp] theorem State.storePayload_cfgMatch (f b : Byte) (h : s.idx < 58) :
    (s.storePayload f b h).cfgMatch = s.cfgMatch := rfl
@[simp] theorem State.storePayload_ackKind (f b : Byte) (h : s.idx < 58) :
    (s.storePayload f b h).ackKind = s.ackKind := rfl
@[simp] theorem State.storePayload_lastError (f b : Byte) (h : s.idx < 58) :
    (s.storePayload f b h).lastError = s.lastError := rfl
@[simp] theorem State.storePayload_lastInv (f b : Byte) (h : s.idx < 58) :
    (s.storePayload f b h).lastInv = s.lastInv := rfl
@[simp] theorem State.storePayload_lastInvFlag (f b : Byte) (h : s.idx < 58) :
    (s.storePayload f b h).lastInvFlag = s.lastInvFlag := rfl
@[simp] theorem State.storePayload_rxPending (f b : Byte) (h : s.idx < 58) :
    (s.storePayload f b h).rxPending = s.rxPending := rfl
@[simp] theorem State.storePayload_log (f b : Byte) (h : s.idx < 58) : (s.storePayload f b h).log = s.log := rfl
@[simp] theorem State.storePayload_inputs (f b : Byte) (h : s.idx < 58) :
    (s.storePayload f b h).inputs = s.inputs := rfl
@[simp] theorem State.storePayload_events (f b : Byte) (h : s.idx < 58) :
    (s.storePayload f b h).events = s.events := rfl
@[simp] theorem State.storePayload_params (f b : Byte) (h : s.idx < 58) :
    (s.storePayload f b h).params = s.params := rfl

/-! ### arrive -/

@[simp] theorem State.arrive_pst (b : Byte) : (s.arrive b).pst = s.pst := rfl
@[simp] theorem State.arrive_flag (b : Byte) : (s.arrive b).flag = s.flag := rfl
@[simp] theorem State.arrive_idx (b : Byte) : (s.arrive b).idx = s.idx := rfl
@[simp] theorem State.arrive_plen (b : Byte) : (s.arrive b).plen = s.plen := rfl
@[simp] theorem State.arrive_pbuf (b : Byte) : (s.arrive b).pbuf = s.pbuf := rfl
@[simp] theorem State.arrive_sum (b : Byte) : (s.arrive b).sum = s.sum := rfl
@[simp] theorem State.arrive_cmdBuf (b : Byte) : (s.arrive b).cmdBuf = s.cmdBuf := rfl
@[simp] theorem State.arrive_txIdx (b : Byte) : (s.arrive b).txIdx = s.txIdx := rfl
@[simp] theorem State.arrive_seqState (b : Byte) : (s.arrive b).seqState = s.seqState := rfl
@[simp] theorem State.arrive_sub (b : Byte) : (s.arrive b).sub = s.sub := rfl
@[simp] theorem State.arrive_op (b : Byte) : (s.arrive b).op = s.op := rfl
@[simp] theorem State.arrive_mode (b : Byte) : (s.arrive b).mode = s.mode := rfl
@[simp] theorem State.arrive_mask (b : Byte) : (s.arrive b).mask = s.mask := rfl
@[simp] theorem State.arrive_recCount (b : Byte) : (s.arrive b).recCount = s.recCount := rfl
@[simp] theorem State.arrive_invCount (b : Byte) : (s.arrive b).invCount = s.invCount := rfl
@[simp] theorem State.arrive_expected (b : Byte) : (s.arrive b).expected = s.expected := rfl
@[simp] theorem State.arrive_expValid (b : Byte) : (s.arrive b).expValid = s.expValid := rfl
@[simp] theorem State.arrive_missing (b : Byte) : (s.arrive b).missing = s.missing := rfl
@[simp] theorem State.arrive_echoBuf (b : Byte) : (s.arrive b).echoBuf = s.echoBuf := rfl
@[simp] theorem State.arrive_echoLen (b : Byte) : (s.arrive b).echoLen = s.echoLen := rfl
@[simp] theorem State.arrive_echoFlag (b : Byte) : (s.arrive b).echoFlag = s.echoFlag := rfl
@[simp] theorem State.arrive_echoValid (b : Byte) : (s.arrive b).echoValid = s.echoValid := rfl
@[simp] theorem State.arrive_cfgMatch (b : Byte) : (s.arrive b).cfgMatch = s.cfgMatch := rfl
@[simp] theorem State.arrive_ackKind (b : Byte) : (s.arrive b).ackKind = s.ackKind := rfl
@[simp] theorem State.arrive_lastError (b : Byte) : (s.arrive b).lastError = s.lastError := rfl
@[simp] theorem State.arrive_lastInv (b : Byte) : (s.arrive b).lastInv = s.lastInv := rfl
@[simp] theorem State.arrive_lastInvFlag (b : Byte) : (s.arrive b).lastInvFlag = s.lastInvFlag := rfl
@[simp] theorem State.arrive_rxPending (b : Byte) : (s.arrive b).rxPending = s.rxPending ++ [b] := rfl
@[simp] theorem State.arrive_log (b : Byte) : (s.arrive b).log = s.log := rfl
@[simp] theorem State.arrive_inputs (b : Byte) : (s.arrive b).inputs = s.inputs := rfl
@[simp] theorem State.arrive_events (b : Byte) : (s.arrive b).events = s.events := rfl
@[simp] theorem State.arrive_params (b : Byte) : (s.arrive b).params = s.params := rfl

/-! ### takeEvent -/

@[simp] theorem State.takeEvent_pst (es : List Event) : (s.takeEvent es).pst = s.pst := rfl
@[simp] theorem State.takeEvent_flag (es : List Event) : (s.takeEvent es).flag = s.flag := rfl
@[simp] theorem State.takeEvent_idx (es : List Event) : (s.takeEvent es).idx = s.idx := rfl
@[simp] theorem State.takeEvent_plen (es : List Event) : (s.takeEvent es).plen = s.plen := rfl
@[simp] theorem State.takeEvent_pbuf (es : List Event) : (s.takeEvent es).pbuf = s.pbuf := rfl
@[simp] theorem State.takeEvent_sum (es : List Event) : (s.takeEvent es).sum = s.sum := rfl
@[simp] theorem State.takeEvent_cmdBuf (es : List Event) : (s.takeEvent es).cmdBuf = s.cmdBuf := rfl
@[simp] theorem State.takeEvent_txIdx (es : List Event) : (s.takeEvent es).txIdx = s.txIdx := rfl
@[simp] theorem State.takeEvent_seqState (es : List Event) : (s.takeEvent es).seqState = s.seqState := rfl
@[simp] theorem State.takeEvent_sub (es : List Event) : (s.takeEvent es).sub = s.sub := rfl
@[simp] theorem State.takeEvent_op (es : List Event) : (s.takeEvent es).op = s.op := rfl
@[simp] theorem State.takeEvent_mode (es : List Event) : (s.takeEvent es).mode = s.mode := rfl
@[simp] theorem State.takeEvent_mask (es : List Event) : (s.takeEvent es).mask = s.mask := rfl
@[simp] theorem State.takeEvent_recCount (es : List Event) : (s.takeEvent es).recCount = s.recCount := rfl
@[simp] theorem State.takeEvent_invCount (es : List Event) : (s.takeEvent es).invCount = s.invCount := rfl
@[simp] theorem State.takeEvent_expected (es : List Event) : (s.takeEvent es).expected = s.expected := rfl
@[simp] theorem State.takeEvent_expValid (es : List Event) : (s.takeEvent es).expValid = s.expValid := rfl
@[simp] theorem State.takeEvent_missing (es : List Event) : (s.takeEvent es).missing = s.missing := rfl
@[simp] theorem State.takeEvent_echoBuf (es : List Event) : (s.takeEvent es).echoBuf = s.echoBuf := rfl
@[simp] theorem State.takeEvent_echoLen (es : List Event) : (s.takeEvent es).echoLen = s.echoLen := rfl
@[simp] theorem State.takeEvent_echoFlag (es : List Event) : (s.takeEvent es).echoFlag = s.echoFlag := rfl
@[simp] theorem State.takeEvent_echoValid (es : List Event) : (s.takeEvent es).echoValid = s.echoValid := rfl
@[simp] theorem State.takeEvent_cfgMatch (es : List Event) : (s.takeEvent es).cfgMatch = s.cfgMatch := rfl
@[simp] theorem State.takeEvent_ackKind (es : List Event) : (s.takeEvent es).ackKind = s.ackKind := rfl
@[simp] theorem State.takeEvent_lastError (es : List Event) : (s.takeEvent es).lastError = s.lastError := rfl
@[simp] theorem State.takeEvent_lastInv (es : List Event) : (s.takeEvent es).lastInv = s.lastInv := rfl
@[simp] theorem State.takeEvent_lastInvFlag (es : List Event) : (s.takeEvent es).lastInvFlag = s.lastInvFlag := rfl
@[simp] theorem State.takeEvent_rxPending (es : List Event) : (s.takeEvent es).rxPending = s.rxPending := rfl
@[simp] theorem State.takeEvent_log (es : List Event) : (s.takeEvent es).log = s.log := rfl
@[simp] theorem State.takeEvent_inputs (es : List Event) : (s.takeEvent es).inputs = es := rfl
@[simp] theorem State.takeEvent_events (es : List Event) : (s.takeEvent es).events = s.events + 1 := rfl
@[simp] theorem State.takeEvent_params (es : List Event) : (s.takeEvent es).params = s.params := rfl

/-! ### resetEngine -/

@[simp] theorem State.resetEngine_pst : s.resetEngine.pst = State.reset.pst := rfl
@[simp] theorem State.resetEngine_flag : s.resetEngine.flag = State.reset.flag := rfl
@[simp] theorem State.resetEngine_idx : s.resetEngine.idx = State.reset.idx := rfl
@[simp] theorem State.resetEngine_plen : s.resetEngine.plen = State.reset.plen := rfl
@[simp] theorem State.resetEngine_pbuf : s.resetEngine.pbuf = State.reset.pbuf := rfl
@[simp] theorem State.resetEngine_sum : s.resetEngine.sum = State.reset.sum := rfl
@[simp] theorem State.resetEngine_cmdBuf : s.resetEngine.cmdBuf = State.reset.cmdBuf := rfl
@[simp] theorem State.resetEngine_txIdx : s.resetEngine.txIdx = State.reset.txIdx := rfl
@[simp] theorem State.resetEngine_seqState : s.resetEngine.seqState = State.reset.seqState := rfl
@[simp] theorem State.resetEngine_sub : s.resetEngine.sub = State.reset.sub := rfl
@[simp] theorem State.resetEngine_op : s.resetEngine.op = State.reset.op := rfl
@[simp] theorem State.resetEngine_mode : s.resetEngine.mode = State.reset.mode := rfl
@[simp] theorem State.resetEngine_mask : s.resetEngine.mask = State.reset.mask := rfl
@[simp] theorem State.resetEngine_recCount : s.resetEngine.recCount = State.reset.recCount := rfl
@[simp] theorem State.resetEngine_invCount : s.resetEngine.invCount = State.reset.invCount := rfl
@[simp] theorem State.resetEngine_expected : s.resetEngine.expected = State.reset.expected := rfl
@[simp] theorem State.resetEngine_expValid : s.resetEngine.expValid = State.reset.expValid := rfl
@[simp] theorem State.resetEngine_missing : s.resetEngine.missing = State.reset.missing := rfl
@[simp] theorem State.resetEngine_echoBuf : s.resetEngine.echoBuf = State.reset.echoBuf := rfl
@[simp] theorem State.resetEngine_echoLen : s.resetEngine.echoLen = State.reset.echoLen := rfl
@[simp] theorem State.resetEngine_echoFlag : s.resetEngine.echoFlag = State.reset.echoFlag := rfl
@[simp] theorem State.resetEngine_echoValid : s.resetEngine.echoValid = State.reset.echoValid := rfl
@[simp] theorem State.resetEngine_cfgMatch : s.resetEngine.cfgMatch = State.reset.cfgMatch := rfl
@[simp] theorem State.resetEngine_ackKind : s.resetEngine.ackKind = State.reset.ackKind := rfl
@[simp] theorem State.resetEngine_lastError : s.resetEngine.lastError = State.reset.lastError := rfl
@[simp] theorem State.resetEngine_lastInv : s.resetEngine.lastInv = State.reset.lastInv := rfl
@[simp] theorem State.resetEngine_lastInvFlag : s.resetEngine.lastInvFlag = State.reset.lastInvFlag := rfl
@[simp] theorem State.resetEngine_rxPending : s.resetEngine.rxPending = s.rxPending := rfl
@[simp] theorem State.resetEngine_log : s.resetEngine.log = s.log := rfl
@[simp] theorem State.resetEngine_inputs : s.resetEngine.inputs = s.inputs := rfl
@[simp] theorem State.resetEngine_events : s.resetEngine.events = s.events := rfl
@[simp] theorem State.resetEngine_params : s.resetEngine.params = s.params := rfl

end Sys2Proof.Machine
end

