-- ==== Sys2Proof/Laws/Step.lean ====
section
/-! SUPPORT. Everything a step can do, once: later proofs about all steps cite `step_cases` and unfold nothing. -/

namespace Sys2Proof.Machine

theorem step_cons {s : State} {e : Event} {es : List Event} (h : s.inputs = e :: es) :
    step s = onEvent e (s.takeEvent es) := by
  rw [step, nextEvent, h]

theorem step_idle {s : State} (h : s.inputs = []) : step s = .next s := by
  rw [step, nextEvent, h]

theorem steps_succ {n : Nat} {s t : State} (h : step s = .next t) : steps (n + 1) s = steps n t := by
  rw [steps, h]

theorem steps_one (s : State) : steps 1 s = step s := by
  rw [steps]
  cases step s <;> rfl

theorem steps_add (m n : Nat) : ∀ {s t : State}, steps m s = .next t → steps (m + n) s = steps n t := by
  induction m with
  | zero => intro s t h; cases h; rw [Nat.zero_add]
  | succ m ih =>
    intro s t h
    rw [Nat.add_right_comm, steps]
    rw [steps] at h
    split at h
    · exact ih h
    · cases h
    · cases h

theorem step_rxByte_flag {s : State} {b : Byte} {rest : List Byte} {es : List Event} (hi : s.inputs = .rxByte :: es)
    (hp : s.pst = .flag) (hr : s.rxPending = b :: rest) :
    step s = onFlagByte b { s.takeEvent es with rxPending := rest } := by
  rw [step_cons hi]
  simp only [onEvent, onRxByte, State.takeEvent, hr, hp]

theorem step_rxByte_pay {s : State} {b : Byte} {rest : List Byte} {es : List Event} (hi : s.inputs = .rxByte :: es)
    (hp : s.pst = .pay) (hr : s.rxPending = b :: rest) :
    step s = onPayloadByte b { s.takeEvent es with rxPending := rest } := by
  rw [step_cons hi]
  simp only [onEvent, onRxByte, State.takeEvent, hr, hp]

theorem State.pst_of_not_rxReady {s : State} (h : s.rxReady = false) : s.pst = .idle ∨ s.pst = .unused3 := by
  unfold State.rxReady at h; split at h <;> simp_all

theorem onFlagByte_cases {b : Byte} {s t : State} (h : onFlagByte b s = .next t) :
    (0 < payloadLen b ∧ t = (s.setFlag b).beginPayload (payloadLen b)) ∨
    ∃ r : Result, r.echoLengthOk ∧ finishRead r (s.setFlag b) = .next t := by
  unfold onFlagByte at h
  split at h
  · rename_i i rest hd
    obtain ⟨r, hr, hl⟩ := exec_frame (s.setFlag b) (decodeFrame_isCommand hd)
    exact .inr ⟨r, hl, by rw [← hr]; exact h⟩
  · rename_i e hd
    cases h
    exact .inl ⟨decodeFrame_single_bad.1 ⟨e, hd⟩, rfl⟩

theorem onPayloadByte_cases {b : Byte} {s t : State} (h : onPayloadByte b s = .next t) :
    ∃ f, ∃ hi : s.idx < 58, s.flag = some f ∧
      ((s.idx + 1 ≠ s.plen ∧ t = s.storePayload f b hi) ∨
       (s.idx + 1 = s.plen ∧ ∃ r : Result, r.echoLengthOk ∧ finishRead r (s.storePayload f b hi) = .next t)) := by
  unfold onPayloadByte at h
  split at h
  · cases h
  · rename_i f hf
    split at h
    · rename_i hi
      refine ⟨f, hi, hf, ?_⟩
      simp only at h
      split at h
      · rename_i hp
        refine .inr ⟨hp, ?_⟩
        unfold completeFrame at h
        split at h
        · cases h
        · split at h
          · rename_i i rest hd
            obtain ⟨r, hr, hl⟩ := exec_frame (s.storePayload f b hi) (decodeFrame_isCommand hd)
            exact ⟨r, hl, by rw [← hr]; exact h⟩
          · cases h
      · cases h; exact .inl ⟨‹_›, rfl⟩
    · cases h

/-- `u` differs from `s` in the parser's registers and the transport's bytes at most. -/
def State.parserOnly (s u : State) : Prop :=
  u = { s with
    pst := u.pst, flag := u.flag, idx := u.idx, plen := u.plen, pbuf := u.pbuf, sum := u.sum, rxPending := u.rxPending }

/-- What a step with an event can do; `s` is the state with the event taken, `e` the event. -/
inductive Move (e : Event) (s t : State) : Prop
  /-- A request is answered with an error. -/
  | refused (r : Request) (c : ErrorCode) (f : Byte) (he : e = .cmdRequest r) (hc : c ≠ .none) (ht : t = s.answer c f)
  /-- A command is accepted. -/
  | accepted (r : Request) (i : Instr) (frame : Vector Byte 10) (he : e = .cmdRequest r) (hi : r.instr = some i)
      (hr : s.ready = true) (hf : frame[0] = opcodeOf i)
      (ht : t = (startOf i (s.accept (opcodeOf i) frame)).answer .none 0)
  /-- The event is not enabled. -/
  | dropped (h1 : e ≠ .reset) (h2 : ∀ b, e ≠ .devByte b) (h3 : ∀ r, e ≠ .cmdRequest r) (ht : t = s)
  /-- A byte of the command frame leaves, not the last. -/
  | sent (buf : Vector Byte 10) (he : e = .txAccept) (hs : s.sending = true) (hb : s.cmdBuf = some buf)
      (hx : s.txIdx < 9) (ht : t = s.sendByte (buf[s.txIdx]))
  /-- The last byte of the command frame leaves. -/
  | sentLast (buf : Vector Byte 10) (he : e = .txAccept) (hs : s.sending = true) (hb : s.cmdBuf = some buf)
      (hx : s.txIdx = 9) (ht : t = (s.sendByte buf[9]).sendDone)
  /-- A device byte reaches the transport. -/
  | arrived (b : Byte) (he : e = .devByte b) (ht : t = s.arrive b)
  /-- A flag byte opens the payload window. -/
  | flag (b : Byte) (rest : List Byte) (he : e = .rxByte) (hp : s.pst = .flag) (hr : s.rxPending = b :: rest)
      (hl : 0 < payloadLen b) (ht : t = (({ s with rxPending := rest } : State).setFlag b).beginPayload (payloadLen b))
  /-- A payload byte is stored. -/
  | payload (b : Byte) (rest : List Byte) (f : Byte) (hx : s.idx < 58) (he : e = .rxByte) (hp : s.pst = .pay)
      (hr : s.rxPending = b :: rest) (hf : s.flag = some f) (hl : s.idx + 1 ≠ s.plen)
      (ht : t = State.storePayload { s with rxPending := rest } f b hx)
  /-- A read ends with a result, in the state `u`. -/
  | delivered (r : Result) (u : State) (hw : s.rxReady = true) (hu : s.parserOnly u)
      (he : (e = .rxByte ∧ ∃ b, s.rxPending = b :: u.rxPending) ∨ (e = .rxTimeout ∧ u.rxPending = s.rxPending))
      (hp : u.pst = .idle) (hx : u.idx ≤ max 58 s.idx) (hl : r.echoLengthOk) (ht : deliver r u = .next t)
  /-- Reset. -/
  | reset (he : e = .reset) (ht : t = s.resetEngine)

theorem onRequest_move {r : Request} {s t : State} (h : onRequest r s = .next t) : Move (.cmdRequest r) s t := by
  unfold onRequest at h
  split at h
  · rename_i i hi
    rcases exec_command_cases (instr_isCommand hi) h with ⟨c, f, hc, ht⟩ | ⟨hr, frame, hf, ht⟩
    · exact .refused r c f rfl hc ht
    · exact .accepted r i frame rfl hi hr hf ht
  · split at h <;> cases h <;> exact .refused r _ _ rfl (by simp) rfl

theorem onTxAccept_move {s t : State} (h : onTxAccept s = .next t) : Move .txAccept s t := by
  unfold onTxAccept at h
  split at h
  · cases h; exact .dropped (by simp) (by simp) (by simp) rfl
  · rename_i hs
    have hs : s.sending = true := by simpa using hs
    split at h
    · rename_i hl
      split at h
      · rename_i buf hb
        simp only at h
        split at h
        · rename_i h10
          have h9 : s.txIdx = 9 := by have : s.txIdx + 1 = 10 := h10; omega
          cases h
          exact .sentLast buf rfl hs hb h9 (by simp only [h9])
        · rename_i h10
          have h9 : s.txIdx < 9 := by have : ¬ s.txIdx + 1 = 10 := h10; omega
          cases h
          exact .sent buf rfl hs hb h9 rfl
      · cases h
    · cases h; exact .dropped (by simp) (by simp) (by simp) rfl

theorem onRxTimeout_move {s t : State} (h : onRxTimeout s = .next t) : Move .rxTimeout s t := by
  unfold onRxTimeout at h
  split at h
  · rename_i hp
    exact .delivered _ s.endRead (by rw [State.rxReady, hp]) rfl (.inr ⟨rfl, rfl⟩) rfl (by simp) (by rintro f e ⟨⟩) h
  · rename_i hp
    split at h
    · exact .delivered _ s.endRead (by rw [State.rxReady, hp]) rfl (.inr ⟨rfl, rfl⟩) rfl (by simp) (by rintro f e ⟨⟩) h
    · cases h
  · cases h; exact .dropped (by simp) (by simp) (by simp) rfl
  · cases h; exact .dropped (by simp) (by simp) (by simp) rfl

theorem onRxByte_move {s t : State} (h : onRxByte s = .next t) : Move .rxByte s t := by
  unfold onRxByte at h
  split at h
  · cases h; exact .dropped (by simp) (by simp) (by simp) rfl
  · rename_i b rest hr
    split at h
    · rename_i hp
      rcases onFlagByte_cases h with ⟨h1, h2⟩ | ⟨r, hl, h⟩
      · exact .flag b rest rfl hp hr h1 h2
      · exact .delivered r (({ s with rxPending := rest } : State).setFlag b).endRead (by rw [State.rxReady, hp]) rfl
          (.inl ⟨rfl, b, hr⟩) rfl (by simp) hl h
    · rename_i hp
      obtain ⟨f, hi, hf, ⟨h1, h2⟩ | ⟨h1, r, hl, h2⟩⟩ := onPayloadByte_cases h
      · exact .payload b rest f hi rfl hp hr hf h1 h2
      · exact .delivered r (State.storePayload { s with rxPending := rest } f b hi).endRead (by rw [State.rxReady, hp])
          rfl (.inl ⟨rfl, b, hr⟩) rfl (by have : s.idx < 58 := hi; simp; omega) hl h2
    · cases h; exact .dropped (by simp) (by simp) (by simp) rfl
    · cases h; exact .dropped (by simp) (by simp) (by simp) rfl

/-- Everything a step can do. -/
theorem step_cases {s t : State} (h : step s = .next t) :
    (s.inputs = [] ∧ t = s) ∨ ∃ e es, s.inputs = e :: es ∧ Move e (s.takeEvent es) t := by
  rcases hi : s.inputs with _ | ⟨e, es⟩
  · rw [step_idle hi] at h; cases h; exact .inl ⟨rfl, rfl⟩
  · refine .inr ⟨e, es, rfl, ?_⟩
    rw [step_cons hi] at h
    cases e with
    | cmdRequest r => exact onRequest_move h
    | txAccept => exact onTxAccept_move h
    | devByte b => cases h; exact .arrived b rfl rfl
    | rxByte => exact onRxByte_move h
    | rxTimeout => exact onRxTimeout_move h
    | reset => cases h; exact .reset rfl rfl

end Sys2Proof.Machine
end

