-- ==== Sys2Proof/Laws/Invariant.lean ====
section
/-! SUPPORT. The invariant taken apart, and its parser part. -/

namespace Sys2Proof.Machine

theorem State.inv_iff {s : State} : s.inv = true ↔
    s.parserOk = true ∧ s.txIdxOk = true ∧ s.cmdBufOk = true ∧ s.modeOk = true ∧ s.subOk = true ∧ s.invCountOk = true ∧
    s.singleOk = true ∧ s.expectedOk = true ∧ s.errorOk = true ∧ s.echoBufOk = true ∧ s.exchangeOk = true := by
  simp [State.inv, and_assoc]

theorem State.parserOk_iff {s : State} : s.parserOk = true ↔
    s.pst ≠ .unused3 ∧ s.rxReady = s.readOutstanding ∧ s.idx ≤ 58 ∧ (s.pst = .pay → s.fetchOk = true) := by
  simp [State.parserOk, and_assoc]
  intro _ _ _
  exact ⟨fun h hp => h.resolve_left (by simp [hp]), fun h => by by_cases hp : s.pst = .pay <;> simp_all⟩

/-- With no payload window open the parser part needs no more than the window's agreement with the sequencer. -/
theorem State.parserOk_of {s : State}
    (h1 : s.pst = .idle ∧ s.readOutstanding = false ∨ s.pst = .flag ∧ s.readOutstanding = true) (h : s.idx ≤ 58) :
    s.parserOk = true := by
  rw [parserOk_iff]
  rcases h1 with ⟨h1, h2⟩ | ⟨h1, h2⟩ <;> simp [h1, h2, State.rxReady, h]

/-- A payload byte before the last keeps the payload window consistent. -/
theorem State.fetchOk_store {s : State} {f b : Byte} (hi : s.idx < 58) (hf : s.flag = some f) (h : s.fetchOk = true)
    (hne : s.idx + 1 ≠ s.plen) : (s.storePayload f b hi).fetchOk = true := by
  unfold State.fetchOk at h
  rw [hf] at h
  cases hp : s.readPayload s.idx with
  | none => rw [hp] at h; cases h
  | some p =>
    rw [hp] at h
    have h2 := readPayload_store f b hi hp
    have e1 : (s.storePayload f b hi).idx = s.idx + 1 := rfl
    have e2 : (s.storePayload f b hi).flag = some f := hf
    unfold State.fetchOk
    rw [e1, h2, e2]
    simp only [decide_eq_true_eq] at h ⊢
    obtain ⟨h3, h4, h5⟩ := h
    refine ⟨h3, by show s.idx + 1 < s.plen; omega, fun hc => ?_⟩
    have hl : p.length = s.idx := by
      rw [allWritten_length hp]; simp; omega
    show s.nextSum f b = _
    rw [State.nextSum, hc, h5 hc]
    simp only [Config.cksumLen, State.storePayload]
    split
    · rw [List.take_of_length_le (by omega), List.take_of_length_le (by simp; omega)]
      simp [byteSum, BitVec.ofNat_add]
    · rename_i h6
      have h7 : ¬ (s.idx + 2 < s.plen) := by simpa using h6
      rw [List.take_append_of_le_length (by omega)]

end Sys2Proof.Machine
end

