-- ==== Sys2Proof/Laws/PerInstr.lean ====
section
/-! SUPPORT. A statement about every instruction as syntax: the length of its encoding (30_encoding.md R81, R85, R95). -/

namespace Sys2Proof.Laws.EncodedLength

/-- A command's frame has 10 bytes; an inbound frame has one byte more than its flag's payload; an F_UNREC that is well
formed has its flag byte alone. -/
def Statement (i : Instr) : Prop :=
  if i.isCommand then (encode i).length = 10
  else i.wellFormed = true → ∃ f p, encode i = f :: p ∧ p.length = payloadLen f

theorem setmag (cc : BitVec 16) (tmrc : Byte) : Statement (.setmag cc tmrc) := by simp [Statement, encode, Instr.isCommand]
theorem setmagDefault : Statement .setmagDefault := by simp [Statement, encode, Instr.isCommand]
theorem setimu (f : Vector Byte 9) : Statement (.setimu f) := by simp [Statement, encode, Instr.isCommand]
theorem setimuDefault : Statement .setimuDefault := by simp [Statement, encode, Instr.isCommand]
theorem getmag : Statement .getmag := by simp [Statement, encode, Instr.isCommand]
theorem getimu : Statement .getimu := by simp [Statement, encode, Instr.isCommand]
theorem single (en : BitVec 4) : Statement (.single en) := by simp [Statement, encode, Instr.isCommand]
theorem cont (en : BitVec 4) (avg : Bool) (rate : Byte) (dur : BitVec 48) : Statement (.cont en avg rate dur) := by
  simp [Statement, encode, Instr.isCommand]
theorem sendavail : Statement .sendavail := by simp [Statement, encode, Instr.isCommand]
theorem stopall : Statement .stopall := by simp [Statement, encode, Instr.isCommand]
theorem fCmpl : Statement .fCmpl := fun _ => ⟨_, _, rfl, rfl⟩
theorem fDebug (p : Vector Byte 18) : Statement (.fDebug p) := fun _ => ⟨_, _, rfl, by simp [payloadLen]⟩
theorem fMecho (p : Vector Byte 3) : Statement (.fMecho p) := fun _ => ⟨_, _, rfl, by simp [payloadLen]⟩
theorem fIecho (p : Vector Byte 9) : Statement (.fIecho p) := fun _ => ⟨_, _, rfl, by simp [payloadLen]⟩
theorem fMag (p : Vector Byte 44) : Statement (.fMag p) := fun _ => ⟨_, _, rfl, by simp [payloadLen]⟩
theorem fAll (p : Vector Byte 58) : Statement (.fAll p) := fun _ => ⟨_, _, rfl, by simp [payloadLen]⟩
theorem fMagt (p : Vector Byte 46) : Statement (.fMagt p) := fun _ => ⟨_, _, rfl, by simp [payloadLen]⟩
theorem fMagi (p : Vector Byte 56) : Statement (.fMagi p) := fun _ => ⟨_, _, rfl, by simp [payloadLen]⟩
theorem fUnrec (f : Byte) : Statement (.fUnrec f) := by
  intro h
  refine ⟨f, [], rfl, ?_⟩
  simp only [Instr.wellFormed, knownFlags, decide_eq_true_eq, List.mem_cons, List.not_mem_nil, or_false, not_or] at h
  simp [payloadLen, h]

end Sys2Proof.Laws.EncodedLength
end

