-- ==== Sys2Proof/Tests/Slice0.lean ====
section
/-! SUPPORT. Tests on fixed values, expected results from the spec's tables and vectors (95_test_vectors.md unless another
file is named), and for each obligation with hypotheses a concrete state and operands that meet them. One step each. -/

namespace Sys2Proof.Tests

open Sys2Proof.Machine Sys2Proof.Claims

/-! ### Small states -/

/-- The frame of TV-E1, SETMAG cc=200, tmrc=0. -/
def setmagFrame : Vector Byte 10 := #v[0x01, 0x00, 0xC8, 0x00, 0x00, 0x00, 0x00, 0x00, 0x00, 0x00]

/-- A configuration exchange of opcode 1 in a phase. -/
def exchange (ph : Phase) : State := { State.reset with
  seqState := .configSent, sub := ph, op := 1, cmdBuf := some setmagFrame
  pst := if ph = .tx then .idle else .flag
  txIdx := if ph = .tx then 0 else 10 }

/-- A measurement session that waits for a flag byte. -/
def collecting (m : Mode) (op : Byte) : State := { State.reset with
  seqState := .collecting, pst := .flag, mode := m, op := op, mask := 0xF, cmdBuf := some (mkFrame op [0x0F])
  expValid := m == .cont, expected := if m = .cont then 5 else 0 }

/-- A SINGLE session. -/
def single0 : State := collecting .single 5

/-- A CONT session. -/
def cont0 : State := collecting .cont 6

/-- A command without response protocol, being sent (STOPALL, R238). -/
def stopping : State := { State.reset with seqState := .cmdSent, op := 8, cmdBuf := some (mkFrame 8 []), txIdx := 0 }

/-- A measurement command being sent. -/
def measuring : State := { State.reset with
  seqState := .measCmdSent, mode := .single, op := 5, mask := 0xF, cmdBuf := some (mkFrame 5 [0x0F]), txIdx := 0 }

/-- In a payload window of `f` after the bytes `bs`. -/
def inPayload (s : State) (f : Byte) (bs : List Byte) (sum : BitVec 16) : State := { s with
  pst := .pay, flag := some f, plen := payloadLen f, idx := bs.length, pbuf := fillPayload s.pbuf bs, sum := sum }

/-- The payload of TV-D6, SMALL. -/
def small : Vector Byte 44 :=
  #v[0x00, 0x00, 0x00, 0x05, 0x00, 0x00, 0x00, 0x00, 0x01, 0x00, 0x00, 0x02, 0x00, 0x00, 0x03, 0x00, 0x00, 0x04, 0x00,
     0x00, 0x05, 0x00, 0x00, 0x06, 0x00, 0x00, 0x07, 0x00, 0x00, 0x08, 0x00, 0x00, 0x09, 0x00, 0x00, 0x0A, 0x00, 0x00,
     0x0B, 0x00, 0x00, 0x0C, 0x00, 0x53]

/-- The payload of TV-D4, ALL. -/
def all4 : List Byte :=
  [0x01, 0x02, 0x03, 0x04, 0x7F, 0xFF, 0x00, 0x00, 0x01, 0xFF, 0xFF, 0xFF, 0x7F, 0xFF, 0xFF, 0x80, 0x00, 0x00, 0x00, 0x00,
   0x00, 0x12, 0x34, 0x56, 0x00, 0x00, 0x64, 0xFF, 0xFF, 0x9C] ++
  [0x00, 0x00, 0x00, 0x0A, 0x0B, 0x0C, 0xF0, 0xF0, 0xF0, 0x00, 0x00, 0x10, 0x40, 0x00, 0xC0, 0x00, 0x00, 0x00, 0x01, 0x06,
   0xFE, 0xFA, 0x7F, 0xFF, 0x08, 0x00, 0x12, 0xA3]

/-! ### WellFormed refuses an ill-formed term of each check -/

theorem test_wellFormed_tmrc : (Instr.setmag 0 14).wellFormed = false ∧ (Instr.setmag 0 13).wellFormed = true := by decide
theorem test_wellFormed_imu : (Instr.setimu #v[0, 0, 0, 0, 0, 3, 0, 0, 0]).wellFormed = false ∧
    (Instr.setimu #v[11, 7, 1, 3, 7, 2, 1, 1, 4]).wellFormed = true := by decide
theorem test_wellFormed_rate : (Instr.cont 15 true 50 0).wellFormed = false ∧
    (Instr.cont 15 true 1 0).wellFormed = true ∧ (Instr.cont 15 false 50 0).wellFormed = true := by decide
theorem test_wellFormed_flag : (Instr.fUnrec 0x0A).wellFormed = false ∧ (Instr.fUnrec 0x08).wellFormed = true := by decide

/-! ### Decoding, one word per constructor -/

theorem test_decode_setmag : decodeCommand [0x01, 0x01, 0x2C, 0x05, 0, 0, 0, 0, 0, 0] = .ok (.setmag 300 5) [] := by decide
theorem test_decode_setimu :
    decodeCommand [0x02, 0x0B, 0x07, 0x01, 0x03, 0x07, 0x02, 0x01, 0x01, 0x04] =
      .ok (.setimu #v[11, 7, 1, 3, 7, 2, 1, 1, 4]) [] := by decide
theorem test_decode_getmag : decodeCommand [0x03, 0, 0, 0, 0, 0, 0, 0, 0, 0] = .ok .getmag [] := by decide
theorem test_decode_getimu : decodeCommand [0x04, 0, 0, 0, 0, 0, 0, 0, 0, 0] = .ok .getimu [] := by decide
theorem test_decode_single : decodeCommand [0x05, 0x0D, 0, 0, 0, 0, 0, 0, 0, 0] = .ok (.single 13) [] := by decide
theorem test_decode_cont :
    decodeCommand [0x06, 0x0F, 0x01, 0x01, 0, 0, 0, 0, 0x0E, 0x10] = .ok (.cont 15 true 1 3600) [] := by decide
theorem test_decode_sendavail : decodeCommand [0x07, 0, 0, 0, 0, 0, 0, 0, 0, 0] = .ok .sendavail [] := by decide
theorem test_decode_stopall : decodeCommand [0x08, 0, 0, 0, 0, 0, 0, 0, 0, 0] = .ok .stopall [] := by decide
theorem test_decode_fCmpl : decodeFrame [0x0A, 0x04] = .ok .fCmpl [0x04] := by decide
theorem test_decode_fDebug :
    decodeFrame [0x01, 0, 1, 2, 3, 4, 5, 6, 7, 8, 9, 10, 11, 12, 13, 14, 15, 0x00, 0x78] =
      .ok (.fDebug #v[0, 1, 2, 3, 4, 5, 6, 7, 8, 9, 10, 11, 12, 13, 14, 15, 0x00, 0x78]) [] := by decide
theorem test_decode_fMecho : decodeFrame [0x02, 0x00, 0xC8, 0x00] = .ok (.fMecho #v[0x00, 0xC8, 0x00]) [] := by decide
theorem test_decode_fIecho :
    decodeFrame [0x03, 0x0B, 0x07, 0x01, 0x03, 0x07, 0x02, 0x01, 0x01, 0x04] =
      .ok (.fIecho #v[0x0B, 0x07, 0x01, 0x03, 0x07, 0x02, 0x01, 0x01, 0x04]) [] := by decide
theorem test_decode_fMag : decodeFrame (0x04 :: small.toList) = .ok (.fMag small) [] := by decide
theorem test_decode_fAll :
    decodeFrame (0x05 :: List.replicate 58 0xFF) = .ok (.fAll (Vector.replicate 58 0xFF)) [] := by decide
theorem test_decode_fMagt :
    decodeFrame (0x06 :: List.replicate 46 0x01) = .ok (.fMagt (Vector.replicate 46 0x01)) [] := by decide
theorem test_decode_fMagi :
    decodeFrame (0x07 :: List.replicate 56 0x02) = .ok (.fMagi (Vector.replicate 56 0x02)) [] := by decide
theorem test_decode_fUnrec : decodeFrame [0x80, 0x0A] = .ok (.fUnrec 0x80) [0x0A] := by decide
/-- The Default forms have the Custom forms' words (30_encoding.md; R182, R184). -/
theorem test_encode_defaults : (encode .setmagDefault).take 3 = [0x01, 0x00, 0xC8] ∧
    (encode .setimuDefault).take 1 = [0x02] := by decide

/-- Words the tables give no meaning (30_encoding.md R97). -/
theorem test_decode_rejects :
    decodeCommand [0x00, 0, 0, 0, 0, 0, 0, 0, 0, 0] = .bad (.unknownOpcode 0) ∧
    decodeCommand [0x09, 0, 0, 0, 0, 0, 0, 0, 0, 0] = .bad (.unknownOpcode 9) ∧
    decodeCommand [0x03, 0, 0, 0, 0, 0, 0, 0, 0, 1] = .bad .reservedNonzero ∧
    decodeCommand [0x01, 0, 0, 14, 0, 0, 0, 0, 0, 0] = .bad (.fieldIndex 1) ∧
    decodeCommand [0x02, 0, 0, 0, 0, 0, 0, 0, 0, 5] = .bad (.fieldIndex 24) ∧
    decodeCommand [0x05, 0x10, 0, 0, 0, 0, 0, 0, 0, 0] = .bad .maskBits ∧
    decodeCommand [0x06, 0x0F, 2, 0, 0, 0, 0, 0, 0, 0] = .bad .averageByte ∧
    decodeCommand [0x06, 0x0F, 1, 0, 0, 0, 0, 0, 0, 0] = .bad .averagedRate ∧
    decodeCommand [0x03] = .bad .tooShort ∧ decodeFrame [] = .bad .tooShort := by decide

/-- The host's numbering of words, both widths. -/
theorem test_decodeTableWord :
    decodeTableWord 80 0x00 = none ∧
    decodeTableWord 80 0x7800000000000A000F06 = some (.cont 15 false 10 120) ∧
    decodeTableWord 8 0x0A = some .fCmpl ∧ decodeTableWord 8 0x02 = some (.fMecho #v[0, 0, 0]) ∧
    decodeTableWord 8 0xFF = some (.fUnrec 0xFF) := by decide

/-- The placed word is the one the next step runs: the frame `0A` ends a session, the request GETMAG is accepted. -/
theorem test_withFetchWord :
    (nextOf (step (State.reset.withFetchWord 8 0x0A))).map (·.seqState) = some .complete ∧
    (nextOf (step (State.reset.withFetchWord 80 0x03))).map (·.op) = some 3 := by decide

/-! ### Codec: TV-T, TV-B, TV-K -/

theorem test_tc : tc 0xFFFF9C 24 = -100 ∧ tc 0x800000 24 = -8388608 ∧ tc 0x7FFFFF 24 = 8388607 ∧ tc 0xFEFA 16 = -262 := by
  decide
theorem test_bytesBE : bytesBE 3600 6 = [0, 0, 0, 0, 0x0E, 0x10] ∧ beNat [0x01, 0x02, 0x03, 0x04] = 16909060 := by decide
theorem test_checksum : cksCalc small.toList = 83 ∧ verifyChecksum small.toList = true ∧
    verifyChecksum (small.toList.set 43 0xD3) = false ∧ verifyChecksum (List.replicate 58 0xFF) = false := by decide
/-- TV-D4: `accv`, `gyrv`, temperature and timestamp. -/
theorem test_decodeRecord :
    (decodeRecord 0x05 all4).accv = some #v[16384, -16384, 0] ∧ (decodeRecord 0x05 all4).gyrv = some #v[262, -262, 32767] ∧
    (decodeRecord 0x05 all4).temp = some 0x0800 ∧ (decodeRecord 0x05 all4).tsSec = 16909060 ∧
    (decodeRecord 0x05 all4).magv[1] = #v[-8388608, 0, 1193046] ∧ verifyChecksum all4 = true := by decide
/-- R194: magnetometer 2 disabled gives 0b1101. -/
theorem test_enableMask : enableMask [1] = 0b1101 := by decide

/-! ### Commands: TV-E -/

theorem test_setmag : (nextOf (exec (.setmag 65535 13) .reset)).map (·.cmdBuf) =
    some (some #v[0x01, 0xFF, 0xFF, 0x0D, 0, 0, 0, 0, 0, 0]) := by decide
theorem test_setmag_illegal : (nextOf (exec (.setmag 0 14) .reset)).map (·.log) =
    some [.cmdResult .invalidFieldIndex 1] := by decide
theorem test_setmagDefault : (nextOf (exec .setmagDefault .reset)).map (·.seqState) = some .configSent := by decide
theorem test_setimu_lowest : (nextOf (exec (.setimu #v[12, 0, 0, 0, 0, 3, 0, 0, 0]) .reset)).map (·.log) =
    some [.cmdResult .invalidFieldIndex 16] := by decide
theorem test_setimuDefault : (nextOf (exec .setimuDefault .reset)).map (·.op) = some 2 := by decide
theorem test_getmag : (nextOf (exec .getmag .reset)).map (·.cmdBuf) = some (some #v[0x03, 0, 0, 0, 0, 0, 0, 0, 0, 0]) := by
  decide
theorem test_getimu : (nextOf (exec .getimu .reset)).map (·.cmdBuf) = some (some #v[0x04, 0, 0, 0, 0, 0, 0, 0, 0, 0]) := by
  decide
theorem test_single : (nextOf (exec (.single 13) .reset)).map (·.cmdBuf) =
    some (some #v[0x05, 0x0D, 0, 0, 0, 0, 0, 0, 0, 0]) := by decide
theorem test_cont_averaged : (nextOf (exec (.cont 15 true 50 3600) .reset)).map (fun t => (t.cmdBuf, t.expected)) =
    some (some #v[0x06, 0x0F, 0x01, 0x01, 0, 0, 0, 0, 0x0E, 0x10], 3600) := by decide
theorem test_cont_largest : (nextOf (exec (.cont 15 false 255 0xFFFFFFFFFFFF) .reset)).map (·.expected) =
    some 71776119061217025 := by decide
theorem test_sendavail_collect :
    (nextOf (exec .sendavail { State.reset with params := ⟨[], .collect, .none⟩ })).map (fun t => (t.seqState, t.mode)) =
      some (.measCmdSent, .stream) := by decide
theorem test_stopall_busy : (nextOf (exec .stopall cont0)).map (·.log) = some [.cmdResult .busy 0] := by decide

/-! ### Frames: TV-D and TV-S -/

/-- W7: a Complete before any data. -/
theorem test_fCmpl : (nextOf (exec .fCmpl single0)).map (fun t => (t.seqState, t.recCount, t.lastError)) =
    some (.complete, 0, .none) := by decide
/-- P2: S0 = 0x46 and S1 = 0x06 after the one record. -/
theorem test_fMag : (nextOf (exec (.fMag small) { single0 with sum := 0x53 })).map (fun t =>
    (t.seqState, t.recCount, t.viewState, t.viewFlags)) = some (.complete, 1, 0x46, 0x06) := by decide
/-- TV-D17: the wire checksum flipped. -/
theorem test_fMag_checksum : (nextOf (exec (.fMag (small.set 43 0xD3)) { cont0 with sum := 0x53 })).map (fun t =>
    (t.invCount, t.lastError, t.viewLastInv)) = some (1, .invalidFrame, 0x0403) := by decide
theorem test_fAll : (nextOf (exec (.fAll (Vector.replicate 58 0)) cont0)).map (fun t => (t.seqState, t.recCount)) =
    some (.collecting, 1) := by decide
theorem test_fMagt : (nextOf (exec (.fMagt (Vector.replicate 46 0)) cont0)).map (·.recCount) = some 1 := by decide
theorem test_fMagi : (nextOf (exec (.fMagi (Vector.replicate 56 0)) cont0)).map (·.recCount) = some 1 := by decide
/-- TV-D7 and R236: a Debug frame is emitted and not counted. -/
theorem test_fDebug :
    (nextOf (exec (.fDebug #v[0, 1, 2, 3, 4, 5, 6, 7, 8, 9, 10, 11, 12, 13, 14, 15, 0x00, 0x78])
      { single0 with sum := 0x78 })).map (fun t => (t.log, t.recCount)) =
      some ([.debug [0, 1, 2, 3, 4, 5, 6, 7, 8, 9, 10, 11, 12, 13, 14, 15]], 0) := by decide
/-- P1: the echo of SETMAG matches. -/
theorem test_fMecho : (nextOf (exec (.fMecho #v[0x00, 0xC8, 0x00]) (exchange .echo))).map (fun t =>
    (t.cfgMatch, t.sub, t.echoLen)) = some (true, .ack, 3) := by decide
/-- TV-S12: an echo of the wrong kind does not match. -/
theorem test_fIecho : (nextOf (exec (.fIecho #v[0x00, 0xC8, 0x00, 0, 0, 0, 0, 0, 0]) (exchange .echo))).map (fun t =>
    (t.cfgMatch, t.echoFlag, t.echoLen)) = some (false, 0x03, 9) := by decide
/-- The tenth invalid read aborts (W6, P5a): S0 = 0x47 and S1 = 0x16. -/
theorem test_fUnrec_tenth :
    (nextOf (exec (.fUnrec 0xFF) { single0 with invCount := 9 })).map (fun t => (t.viewState, t.viewFlags, t.lastError)) =
      some (0x47, 0x16, .tooManyInvalidFrames) := by decide
/-- TV-S5: three records of two expected leave MISSING = −1. -/
theorem test_missing_negative :
    (nextOf (exec .fCmpl { cont0 with recCount := 3, expected := 2 })).map (·.missing) = some (-1) := by decide
/-- TV-S1: the echo window expires; the result is not counted. -/
theorem test_echo_absent :
    (nextOf (step { exchange .echo with inputs := [.rxTimeout] })).map (fun t => (t.sub, t.viewLastInv, t.invCount)) =
      some (.ack, 0x0001, 0) := by decide
/-- R42, R274 and R226: an acknowledgment that never comes is recorded, and ends the exchange. -/
theorem test_ack_absent :
    (nextOf (step { exchange .ack with lastInv := .reason .short, lastInvFlag := 2, inputs := [.rxTimeout] })).map
      (fun t => (t.seqState, t.ackKind, t.viewLastInv)) = some (.configFailed, .invalid, 0x0001) := by decide
/-- R8 and R181: a cycle count outside CC_VALID is refused with field id 2. -/
theorem test_setmag_cc :
    (nextOf (exec (.setmag 200 0) { State.reset with params := ⟨[200], .none, .none⟩ })).map (fun t => (t.log, t.op)) =
      some ([.cmdResult .invalidFieldIndex 2], 0) := by decide
/-- P1: S0 = 0x02 and S1 = 0xAE at the end. -/
theorem test_ack :
    (nextOf (exec .fCmpl { exchange .ack with cfgMatch := true, echoValid := true, echoFlag := 2, echoLen := 3 })).map
      (fun t => (t.viewState, t.viewFlags, t.ackKind)) = some (0x02, 0xAE, .complete) := by decide
/-- TV-S9: the tenth byte of STOPALL ends it in IDLE, with no session end in the log. -/
theorem test_stopall_sent :
    (nextOf (step { stopping with txIdx := 9, inputs := [.txAccept] })).map (fun t => (t.seqState, t.pst, t.log)) =
      some (.idle, .idle, [.txByte 0]) := by decide
/-- TV-S11: Reset in Collecting keeps the output log and ends no session. -/
theorem test_reset :
    (nextOf (step { cont0 with log := [.txByte 7], inputs := [.reset] })).map (fun t => (t.seqState, t.op, t.log)) =
      some (.idle, 0, [.txByte 7]) := by decide
/-- R44: the status view right after reset, S0 = 0x00 and S1 = 0x02. -/
theorem test_reset_view : State.reset.viewState = 0x00 ∧ State.reset.viewFlags = 0x02 := by decide

/-! ### The hypotheses of the obligations are met -/

theorem test_witness_DecodeOfEncodeIsIdentity :
    (Instr.cont 15 true 1 0xFFFFFFFFFFFF).wellFormed = true ∧ (Instr.cont 15 true 1 0xFFFFFFFFFFFF).isDefaultForm = false ∧
    (Instr.fUnrec 0x00).wellFormed = true ∧ (Instr.fUnrec 0x00).isDefaultForm = false := by decide
theorem test_witness_EncodeOfDecodeIsIdentity :
    decodeCommand [0x05, 0x0F, 0, 0, 0, 0, 0, 0, 0, 0, 7] = .ok (.single 15) [7] ∧
    decodeFrame [0x08, 0x0A] = .ok (.fUnrec 0x08) [0x0A] := by decide
theorem test_witness_LengthFromFirstByteAlone :
    payloadLen 0x02#8 ≤ [0#8, 0#8, 0#8].length ∧ [0#8, 0#8].length < payloadLen 0x02#8 ∧ (0x0B#8 : Byte) ∉ knownFlags ∧
    Instr.stopall.isCommand = true := by decide
theorem test_witness_TwosComplementDecode :
    1 ≤ 16 ∧ 0x8000 < 2 ^ 16 ∧ Nat.testBit 0x8000 (16 - 1) = true ∧ Nat.testBit 0x7FFF (16 - 1) = false ∧
    (1 : Nat) < 2 ^ 1 := by decide
theorem test_witness_BigEndianEncoding : 255 < 256 ^ 1 ∧ 0 < 1 := by decide
theorem test_witness_ChecksumSumFitsSixteenBits :
    checksummed 0x05#8 = true ∧ (List.replicate 58 0xFF#8).length = payloadLen 0x05#8 ∧ checksummed 0x01#8 = true ∧
    (List.replicate 18 0xFF#8).length = payloadLen 0x01#8 := by decide
theorem test_witness_SingleBitFlipRejected :
    checksummed 0x04#8 = true ∧ small.toList.length = payloadLen 0x04#8 ∧ verifyChecksum small.toList = true ∧
    43 < small.toList.length := by decide
theorem test_witness_FinishAgreesWithVerify :
    verifyChecksum (List.replicate 18 0#8) = true ∧ (List.replicate 18 0#8).length = payloadLen 0x01#8 ∧
    verifyChecksum (List.replicate 44 0#8) = true ∧ (List.replicate 44 0#8).length = payloadLen 0x04#8 ∧
    verifyChecksum (List.replicate 44 1#8) = false ∧ (List.replicate 44 1#8).length = payloadLen 0x04#8 := by decide
theorem test_witness_RecordFieldsFromPayload :
    (decodeRecord 0x04#8 (List.replicate 44 0)).hasImu = false ∧ (decodeRecord 0x04#8 (List.replicate 44 0)).hasTemp = false ∧
    (decodeRecord 0x05#8 (List.replicate 58 0)).hasImu = true ∧ (decodeRecord 0x06#8 (List.replicate 46 0)).hasTemp = true := by
  decide
theorem test_witness_SetmagInReadyState :
    State.reset.ready = true ∧ (13 : Byte).toNat ≤ 13 ∧ 13 < (14 : Byte).toNat ∧ 65535#16 ∉ State.reset.params.ccExcluded ∧
    0#16 ∈ ({ State.reset with params := ⟨[0], .none, .none⟩ } : State).params.ccExcluded := by decide
theorem test_witness_SetimuInReadyState :
    (∀ k : Fin 9, (#v[11, 7, 1, 3, 7, 2, 1, 1, 4] : Vector Byte 9)[k].toNat < Config.imuFieldCount[k]) ∧
    (Config.imuFieldCount[(8 : Fin 9)] ≤ (#v[0, 0, 0, 0, 0, 0, 0, 0, 5] : Vector Byte 9)[(8 : Fin 9)].toNat ∧
      ∀ j : Fin 9, j < 8 → (#v[0, 0, 0, 0, 0, 0, 0, 0, 5] : Vector Byte 9)[j].toNat < Config.imuFieldCount[j]) ∧
    Config.imuFieldCount[(0 : Fin 9)] ≤ (#v[12, 0, 0, 0, 0, 3, 0, 0, 0] : Vector Byte 9)[(0 : Fin 9)].toNat := by decide
/-- The five ready states (for SetimuDefault, GetConfig, Single, Cont, SendavailStopall, AcceptedFrameIsEncoding). -/
theorem test_witness_ready :
    State.reset.ready = true ∧ ({ State.reset with seqState := .configured } : State).ready = true ∧
    ({ State.reset with seqState := .configFailed } : State).ready = true ∧
    ({ State.reset with seqState := .complete } : State).ready = true ∧
    ({ State.reset with seqState := .aborted } : State).ready = true := by decide
theorem test_witness_AcceptedFrameIsEncoding :
    (Instr.setmag 0 13).isCommand = true ∧ operandsLegal State.reset.params (.setmag 0 13) ∧
    operandsLegal State.reset.params .setmagDefault := by
  simp [operandsLegal, Instr.isCommand, State.reset]
theorem test_witness_RefusedRequestChangesNothing :
    (Instr.setmag 0 14).isCommand = true ∧ ¬ operandsLegal ⟨[7], .none, .none⟩ (.setmag 0 14) ∧
    offends ⟨[7], .none, .none⟩ (.setmag 0 14) 1 ∧ offends ⟨[7], .none, .none⟩ (.setmag 7 13) 2 ∧
    operandsLegal ⟨[7], .none, .none⟩ (.setmag 0 13) ∧ State.reset.ready = true := by
  simp [operandsLegal, offends, Instr.isCommand, State.ready, State.busy, State.reset]
theorem test_witness_BusyRefusesEveryRequest :
    cont0.busy = true ∧ (exchange .tx).busy = true ∧
    ({ cont0 with inputs := [.cmdRequest .stopall] } : State).inputs = [.cmdRequest .stopall] := by decide
theorem test_witness_UnknownOpcodeRefused :
    State.reset.ready = true ∧ (UnknownOp.mk 9 (by decide)).op = 9 ∧ (UnknownOp.mk 0 (by decide)).op = 0 := by decide
theorem test_witness_WholeFrameIsSentInOrder :
    (exchange .tx).sending = true ∧ (exchange .tx).txIdx = 0 ∧ (exchange .tx).cmdBuf = some setmagFrame ∧
    measuring.sending = true ∧ stopping.sending = true := by decide
theorem test_witness_TxAcceptSendsOneByte :
    ({ exchange .tx with txIdx := 8 } : State).txIdx < 9 ∧ ({ exchange .tx with txIdx := 8 } : State).sending = true := by
  decide
theorem test_witness_SendDoneByState :
    ({ exchange .tx with txIdx := 9 } : State).txIdx = 9 ∧ (exchange .tx).sub = .tx ∧ (exchange .tx).sending = true ∧
    (exchange .tx).seqState = .configSent ∧ measuring.seqState = .measCmdSent ∧ stopping.seqState = .cmdSent ∧
    (exchange .tx).inv = true ∧ tenthTxAccept { exchange .tx with inputs := [.txAccept] } = false ∧
    (nextOf (step { exchange .tx with inputs := [.txAccept] })).map (·.rxReady) = some false := by decide
theorem test_witness_StepRunsDecodedInstruction :
    Request.instr (.single 3) = some (.single 3) ∧ decodeFrame [0x0A] = .ok .fCmpl [] ∧
    (inPayload (exchange .echo) 0x02 [0x00, 0xC8] 0).readPayload 2 = some [0x00, 0xC8] ∧
    (inPayload (exchange .echo) 0x02 [0x00, 0xC8] 0).idx + 1 = (inPayload (exchange .echo) 0x02 [0x00, 0xC8] 0).plen ∧
    decodeFrame (0x02 :: ([0x00, 0xC8] ++ [0x00])) = .ok (.fMecho #v[0x00, 0xC8, 0x00]) [] := by decide
theorem test_witness_FlagByteDispatch : single0.pst = .flag ∧ (0x00 : Byte) ∉ knownFlags ∧ (0xFF : Byte) ∉ knownFlags := by
  decide
/-- The last byte before the checksum field, the first of it, and a byte of an echo frame. -/
theorem test_witness_PayloadByteStored :
    (inPayload single0 0x04 (List.replicate 41 0) 0).idx + 1 ≠ (inPayload single0 0x04 (List.replicate 41 0) 0).plen ∧
    (inPayload single0 0x04 (List.replicate 42 0) 0).idx + 1 ≠ (inPayload single0 0x04 (List.replicate 42 0) 0).plen ∧
    (inPayload single0 0x02 [] 0).pst = .pay ∧ (inPayload single0 0x05 (List.replicate 56 0) 0).idx < 58 := by decide
theorem test_witness_ByteWiseReceptionExecutesFrame :
    (Instr.fMecho #v[1, 2, 3]).isCommand = false ∧ (Instr.fMecho #v[1, 2, 3]).wellFormed = true ∧
    encode (.fMecho #v[1, 2, 3]) = 0x02 :: [1, 2, 3] ∧ encode .fCmpl = 0x0A :: [] ∧ (exchange .echo).pst = .flag := by decide
theorem test_witness_timeouts :
    single0.pst = .flag ∧ (inPayload single0 0x04 [0, 0] 0).pst = .pay ∧ (inPayload single0 0x04 [0, 0] 0).flag = some 0x04 := by
  decide
/-- The two timeouts of both phases of an exchange (OtherFrameInEchoPhaseFailsTheMatch, AcknowledgmentEndsExchange). -/
theorem test_witness_exchangeTimeouts :
    (exchange .echo).pst = .flag ∧ (exchange .ack).pst = .flag ∧
    (inPayload (exchange .echo) 0x02 [0] 0).pst = .pay ∧ (inPayload (exchange .echo) 0x02 [0] 0).flag = some 0x02 ∧
    (inPayload (exchange .ack) 0x04 [] 0).pst = .pay ∧ (inPayload (exchange .ack) 0x04 [] 0).flag = some 0x04 := by decide
/-- An Invalid result in each phase that takes one, and each way LAST_INV changes (LastInvHoldsMostRecentInvalid). -/
theorem test_witness_LastInvHoldsMostRecentInvalid :
    (nextOf (deliver (.invalid .short 2) (exchange .echo))).map (·.lastInv) = some (.reason .short) ∧
    (nextOf (deliver (.invalid .short 2) (exchange .ack))).map (·.lastInvFlag) = some 2 ∧
    (nextOf (deliver (.invalid .short 2) single0)).map (·.lastInv) = some (.reason .short) ∧
    (nextOf (step { cont0 with lastInv := .reason .short, inputs := [.reset] })).map (·.lastInv) = some .none ∧
    (nextOf (step { State.reset with lastInv := .reason .short, inputs := [.cmdRequest .getmag] })).map (·.lastInv) =
      some .none := by decide
theorem test_witness_DisabledEventsChangeNothing :
    State.reset.rxReady = false ∧ State.reset.txValid = false ∧ cont0.txValid = false ∧ cont0.rxPending = [] ∧
    cont0.rxReady = true := by decide
theorem test_witness_DeviceBytesAreHeld :
    ({ State.reset with inputs := [.devByte 7] } : State).inputs = [.devByte 7] ∧ State.reset.inputs = [] := by decide
theorem test_witness_CompleteEndsCollecting : single0.seqState = .collecting ∧ cont0.seqState = .collecting := by decide
theorem test_witness_DataFrameIsCollected :
    single0.sum = (Vector.replicate 44 (0 : Byte))[42] ++ (Vector.replicate 44 (0 : Byte))[43] ∧
    single0.sum = (Vector.replicate 58 (0 : Byte))[56] ++ (Vector.replicate 58 (0 : Byte))[57] ∧
    single0.sum = (Vector.replicate 46 (0 : Byte))[44] ++ (Vector.replicate 46 (0 : Byte))[45] ∧
    single0.sum = (Vector.replicate 56 (0 : Byte))[54] ++ (Vector.replicate 56 (0 : Byte))[55] := by decide
theorem test_witness_DebugFrameIsEmitted :
    single0.sum = (Vector.replicate 18 (0 : Byte))[16] ++ (Vector.replicate 18 (0 : Byte))[17] := by decide
theorem test_witness_ChecksumFailureIsCounted :
    single0.sum ≠ (Vector.replicate 18 (1 : Byte))[16] ++ (Vector.replicate 18 (1 : Byte))[17] ∧
    single0.sum ≠ (Vector.replicate 44 (1 : Byte))[42] ++ (Vector.replicate 44 (1 : Byte))[43] ∧
    single0.sum ≠ (Vector.replicate 58 (1 : Byte))[56] ++ (Vector.replicate 58 (1 : Byte))[57] ∧
    single0.sum ≠ (Vector.replicate 46 (1 : Byte))[44] ++ (Vector.replicate 46 (1 : Byte))[45] ∧
    single0.sum ≠ (Vector.replicate 56 (1 : Byte))[54] ++ (Vector.replicate 56 (1 : Byte))[55] := by decide
theorem test_witness_TenAbsentFramesAbort :
    single0.seqState = .collecting ∧ single0.pst = .flag ∧ single0.invCount = 0 := by decide
/-- The echo phase in each of the four opcodes (EchoFrameIsRecordedAndCompared, OtherFrameInEchoPhaseFailsTheMatch). -/
theorem test_witness_echoPhase :
    (exchange .echo).seqState = .configSent ∧ (exchange .echo).sub = .echo ∧ (exchange .echo).cmdBuf = some setmagFrame ∧
    (exchange .echo).op = 1#8 ∧ ({ exchange .echo with op := 4 } : State).op = 4#8 := by decide
theorem test_witness_AcknowledgmentEndsExchange :
    (exchange .ack).seqState = .configSent ∧ (exchange .ack).sub = .ack ∧
    (exchange .ack).cfgMatch = false ∧ ({ exchange .ack with cfgMatch := true } : State).cfgMatch = true := by decide
theorem test_witness_SetmagExchangeConfigures :
    ∃ s : State, s.ready = true ∧ (13 : Byte).toNat ≤ 13 ∧ 200#16 ∉ s.params.ccExcluded ∧ s.rxPending = [0x02, 0x00, 0xC8, 13, 0x0A] ∧
      s.inputs = .cmdRequest (.setmag (.custom 200 13)) ::
        (List.replicate 10 .txAccept ++ List.replicate 5 .rxByte ++ []) :=
  ⟨{ State.reset with
      rxPending := [0x02, 0x00, 0xC8, 13, 0x0A]
      inputs := .cmdRequest (.setmag (.custom 200 13)) ::
        (List.replicate 10 .txAccept ++ List.replicate 5 .rxByte ++ []) }, by decide, by decide, by decide, rfl, rfl⟩
theorem test_witness_FrameCompletesWithReadOutstanding :
    Instr.fCmpl.isCommand = false ∧ State.reset.readOutstanding = false ∧ single0.readOutstanding = true ∧
    (exchange .tx).readOutstanding = false ∧ (exchange .ack).readOutstanding = true := by decide
theorem test_witness_ResetRestoresEveryRegister : ({ cont0 with inputs := [.reset] } : State).inputs = [.reset] := by decide
theorem test_witness_StatusViewBitPositions :
    ({ exchange .ack with echoValid := true, echoLen := 9, echoBuf := Vector.replicate 9 (some 7) } : State).echoValid = true ∧
    (8 : Fin 9).val < 9 ∧ (inPayload single0 0x04 [] 0).flag = some 0x04 := by decide
/-- States of every kind that meet the invariant, each with a step that goes on (StepKeepsInvariant, NoStepFaults). -/
theorem test_witness_inv :
    (exchange .tx).inv = true ∧ (exchange .echo).inv = true ∧ (exchange .ack).inv = true ∧ measuring.inv = true ∧
    stopping.inv = true ∧ single0.inv = true ∧ cont0.inv = true ∧ (inPayload cont0 0x04 [1, 2] 3).inv = true := by decide
theorem test_witness_inv_step :
    (nextOf (step { exchange .tx with inputs := [.txAccept] })).map (·.txIdx) = some 1 ∧
    (nextOf (step { inPayload cont0 0x04 [1, 2] 3 with rxPending := [4], inputs := [.rxByte] })).map (·.sum) = some 7 := by
  decide
/-- One step along each kind of edge, with its output or register writes (OnlyTabulatedTransitions, OutputLogOnlyGrows,
InboundBytesConsumedInOrder, CommandRegistersWrittenOnlyAtAcceptance). -/
theorem test_witness_edges :
    (nextOf (step { State.reset with inputs := [.cmdRequest (.single 9)] })).map (fun t => (t.seqState, t.mask)) =
      some (.measCmdSent, 9) ∧
    (nextOf (step { measuring with txIdx := 9, inputs := [.txAccept] })).map (·.seqState) = some .collecting ∧
    (nextOf (step { single0 with rxPending := [0x0A, 0x04], inputs := [.rxByte] })).map (fun t =>
      (t.seqState, t.rxPending)) = some (.complete, [0x04]) ∧
    (nextOf (step { cont0 with inputs := [.devByte 3] })).map (·.rxPending) = some [3] := by decide
theorem test_witness_BusyLeftOnlyByEndOrReset :
    single0.busy = true ∧
    (nextOf (step { single0 with rxPending := [0x0A], inputs := [.rxByte] })).map (·.busy) = some false ∧
    (nextOf (step { stopping with txIdx := 9, inputs := [.txAccept] })).map (·.busy) = some false ∧
    (nextOf (step { single0 with inputs := [.reset] })).map (·.busy) = some false := by decide
/-- Each of the four ways LAST_ERROR is written. -/
theorem test_witness_LastErrorWriters :
    (nextOf (step { single0 with lastError := .invalidFrame, inputs := [.reset] })).map (·.lastError) = some .none ∧
    (nextOf (step { State.reset with lastError := .configMismatch, inputs := [.cmdRequest .getmag] })).map (·.lastError) =
      some .none ∧
    (nextOf (step { exchange .ack with inputs := [.rxTimeout] })).map (·.lastError) = some .configMismatch ∧
    (nextOf (step { single0 with inputs := [.rxTimeout] })).map (·.lastError) = some .invalidFrame := by decide

end Sys2Proof.Tests
end

section
/-! PROOFS. The configuration commands in a ready state: acceptance and refusal by the command port, and SETMAG. -/

namespace Sys2Proof.Claims

open Sys2Proof.Machine

section port
variable {op : Byte} {bad : Option Byte} {frame : Vector Byte 10} {s : State}

/-- Acceptance of a configuration command starts a configuration exchange (R196, R222). -/
theorem commandPort_configStarted (hready : s.ready = true) (hbad : bad = none) :
    commandPort op bad frame State.startConfig s = .next (configStarted op frame s) := by
  rw [hbad, commandPort_accept hready]
  rfl

/-- A failing field refuses the command, whatever an acceptance would start (R180, R193). -/
theorem commandPort_refusedWith {start : State → State} {field : Byte} (hready : s.ready = true)
    (hbad : bad = some field) :
    commandPort op bad frame start s = .next (refusedWith .invalidFieldIndex field s) := by
  rw [hbad, commandPort_bad hready]
  rfl

end port

section setmag
variable {p : Params} {cc : BitVec 16} {tmrc : Byte}

theorem magBadField_of_legal (htmrc : tmrc.toNat ≤ 13) (hcc : cc ∉ p.ccExcluded) : magBadField p cc tmrc = none := by
  rw [magBadField_eq, if_neg htmrc.not_gt, if_neg hcc]

theorem magBadField_of_excluded (htmrc : tmrc.toNat ≤ 13) (hcc : cc ∈ p.ccExcluded) : magBadField p cc tmrc = some 2 := by
  rw [magBadField_eq, if_neg htmrc.not_gt, if_pos hcc]

/-- TMRC is checked first, so its field id does not depend on the cycle count (R181). -/
theorem magBadField_of_tmrc_gt (htmrc : 13 < tmrc.toNat) : magBadField p cc tmrc = some 1 := by
  rw [magBadField_eq, if_pos htmrc]

/-- The frame of SETMAG Custom (R181). -/
theorem mkFrame_setmag (cc : BitVec 16) (tmrc : Byte) :
    mkFrame 0x01#8 (bytesBE cc.toNat 2 ++ [tmrc]) =
      #v[0x01, cc.extractLsb' 8 8, cc.extractLsb' 0 8, tmrc, 0, 0, 0, 0, 0, 0] := by
  rw [bytesBE_two, mkFrame_eq]
  rfl

/-- The frame of SETMAG Default (R182). -/
theorem mkFrame_setmagDefault :
    mkFrame 0x01#8 Config.magDefaultPayload.toList =
      #v[0x01, 0x00, 0xC8, BitVec.ofNat 8 Config.magDefaultTmrc.val, 0, 0, 0, 0, 0, 0] := by
  rw [mkFrame_eq]
  rfl

end setmag

/-- Settles O14: the command port's rule on each answer of the operand check, TMRC before the cycle count, with the frame
written out byte by byte. -/
theorem setmagInReadyState : Obligations.SetmagInReadyState := by
  intro cc tmrc s hready
  refine ⟨fun htmrc hcc => ?legal, fun htmrc hcc => ?badCycleCount, fun htmrc => ?badTmrc, ?default⟩
  case legal =>
    rw [← mkFrame_setmag]
    exact commandPort_configStarted hready (magBadField_of_legal htmrc hcc)
  case badCycleCount => exact commandPort_refusedWith hready (magBadField_of_excluded htmrc hcc)
  case badTmrc => exact commandPort_refusedWith hready (magBadField_of_tmrc_gt htmrc)
  case default =>
    rw [← mkFrame_setmagDefault]
    exact commandPort_configStarted hready rfl

end Sys2Proof.Claims
end

section
/-! PROOFS. The serializer: what one TxAccept does before the tenth byte and at it, and a whole command frame. -/

namespace Sys2Proof.Claims

open Sys2Proof.Machine

/-- While a frame is being sent, the model's SendDone is the one R223 tabulates. -/
theorem sendDone_eq_sendFinished {s : State} (hsend : s.sending = true) : s.sendDone = sendFinished s := by
  rcases sendDone_cases hsend with ⟨hseq, -, hdone⟩ | ⟨hseq, hdone⟩ | ⟨hseq, hdone⟩
  all_goals rw [hdone, sendFinished, hseq]

section accept
variable {s : State} {buf : Vector Byte 10} {es : List Event}

/-- An enabled TxAccept sends CMD_BUF[TX_IDX], and is SendDone when that was the tenth byte (R191). -/
theorem step_txAccept (hlt : s.txIdx < 10) (hsend : s.sending = true) (hbuf : s.cmdBuf = some buf)
    (hin : s.inputs = .txAccept :: es) :
    step s = .next (if s.txIdx + 1 = 10 then ((s.takeEvent es).sendByte buf[s.txIdx]).sendDone
      else (s.takeEvent es).sendByte buf[s.txIdx]) := by
  have hsend' : ¬ (s.takeEvent es).sending = false := ne_false_of_eq_true hsend
  have hlt' : (s.takeEvent es).txIdx < 10 := hlt
  rw [step_cons hin, onEvent, onTxAccept, if_neg hsend', dif_pos hlt']
  simp only [State.takeEvent_cmdBuf, hbuf]
  rfl

/-- TxAccept before the tenth byte (R191). -/
theorem step_txAccept_of_lt_nine (hidx : s.txIdx < 9) (hsend : s.sending = true) (hbuf : s.cmdBuf = some buf)
    (hin : s.inputs = .txAccept :: es) : step s = .next ((s.takeEvent es).sendByte buf[s.txIdx]) := by
  rw [step_txAccept (by omega) hsend hbuf hin, if_neg (by omega)]

/-- TxAccept at the tenth byte (R191, R223). -/
theorem step_txAccept_of_eq_nine (hidx : s.txIdx = 9) (hsend : s.sending = true) (hbuf : s.cmdBuf = some buf)
    (hin : s.inputs = .txAccept :: es) : step s = .next (sendFinished ((s.takeEvent es).sendByte buf[9])) := by
  have hdone := sendDone_eq_sendFinished (s := (s.takeEvent es).sendByte buf[9]) hsend
  rw [step_txAccept (by omega) hsend hbuf hin, if_pos (by omega), ← hdone]
  simp only [hidx]

end accept

/-- A send from TX_IDX 0 of which `n` bytes are out, with the events `es` still to come. -/
def prefixSent (buf : Vector Byte 10) (n : Nat) (es : List Event) (s : State) : State :=
  { s with txIdx := n, log := s.log ++ (buf.toList.take n).map .txByte, inputs := es, events := s.events + n }

section wholeFrame
variable {s : State} {buf : Vector Byte 10}

theorem prefixSent_zero {es : List Event} (hidx : s.txIdx = 0) (hin : s.inputs = es) : prefixSent buf 0 es s = s := by
  rw [prefixSent, List.take_zero, List.map_nil, List.append_nil, Nat.add_zero, ← hidx, ← hin]

/-- Sending CMD_BUF[n] after the first `n` bytes leaves the first `n + 1` sent. -/
theorem sendByte_prefixSent {n : Nat} (hn : n < 10) (e : Event) (es : List Event) :
    ((prefixSent buf n (e :: es) s).takeEvent es).sendByte buf[n] = prefixSent buf (n + 1) es s := by
  have htake : buf.toList.take (n + 1) = buf.toList.take n ++ [buf[n]] := by
    simp [List.take_succ_eq_append_getElem, hn]
  simp [prefixSent, State.takeEvent, State.sendByte, State.emit, htake, Nat.add_assoc]

/-- Up to nine TxAccept events send that many bytes of CMD_BUF, by induction on the number of events, the last event
apart. -/
theorem steps_txAccept_prefix (hsend : s.sending = true) (hidx : s.txIdx = 0) (hbuf : s.cmdBuf = some buf) :
    ∀ (n : Nat) (es : List Event), n ≤ 9 → s.inputs = List.replicate n .txAccept ++ es →
      steps n s = .next (prefixSent buf n es s)
  | 0, es, _, hin => congrArg _ (prefixSent_zero hidx hin).symm
  | n + 1, es, hn, hin => by
    have hin' : s.inputs = List.replicate n .txAccept ++ .txAccept :: es := by
      rw [hin, List.replicate_succ', List.append_assoc]; rfl
    have hfirst := steps_txAccept_prefix hsend hidx hbuf n (.txAccept :: es) (by omega) hin'
    have hlast := step_txAccept_of_lt_nine (s := prefixSent buf n (.txAccept :: es) s) hn hsend hbuf rfl
    rw [steps_add n 1 hfirst, steps_one, hlast]
    exact congrArg _ (sendByte_prefixSent (by omega) _ _)

end wholeFrame

/-- Settles O26: nine TxAccept events send the first nine bytes, and the tenth sends the last and is SendDone. -/
theorem wholeFrameIsSentInOrder : Obligations.WholeFrameIsSentInOrder := by
  intro s buf es hsend hidx hbuf hin
  have hfirst : steps 9 s = .next (prefixSent buf 9 (.txAccept :: es) s) :=
    steps_txAccept_prefix hsend hidx hbuf 9 _ (by decide) hin
  have htenth := step_txAccept_of_eq_nine (s := prefixSent buf 9 (.txAccept :: es) s) rfl hsend hbuf rfl
  have hall : buf.toList.take 10 = buf.toList := List.take_of_length_le (by simp)
  rw [steps_add 9 1 hfirst, steps_one, htenth, sendByte_prefixSent (by decide), prefixSent, hall]

end Sys2Proof.Claims
end

section
/-! PROOFS. The codec lemmas both directions of decoding rest on: big-endian bytes and integers are inverse to each
other, and how a nine-byte payload is cut into its fields. -/

namespace Sys2Proof.Machine

theorem bytesBE_succ (v n : Nat) : bytesBE v (n + 1) = BitVec.ofNat 8 (v >>> (8 * n)) :: bytesBE v n := by
  simp [bytesBE, List.range_succ_eq_map, Function.comp_def, Nat.sub_add_eq, Nat.sub_right_comm]

/-- Encoding in `n` bytes and reading back keeps the low `n` bytes of a number (R122, R128). -/
theorem beNat_bytesBE (v n : Nat) : beNat (bytesBE v n) = v % 256 ^ n := by
  induction n with
  | zero => simp [bytesBE, beNat, Nat.mod_one]
  | succ n ih =>
    have hbyte : v >>> (8 * n) = v / 256 ^ n := by rw [Nat.shiftRight_eq_div_pow, pow_mul]; rfl
    rw [bytesBE_succ, beNat_cons, ih, bytesBE_length, Nat.mod_pow_succ, hbyte, BitVec.toNat_ofNat]
    ring

/-- Byte lists of one length with one big-endian integer are equal: the first byte is the quotient by the weight of the
others, the others' integer the remainder. -/
theorem beNat_inj : ∀ {as bs : List Byte}, as.length = bs.length → beNat as = beNat bs → as = bs
  | [], [], _, _ => rfl
  | a :: as, b :: bs, hlen, h => by
    have hlen' : as.length = bs.length := by simpa using hlen
    have ha := beNat_lt as
    have hb := beNat_lt bs
    rw [beNat_cons, beNat_cons, hlen'] at h
    rw [hlen'] at ha
    have hquot (x : Nat) {y : Nat} (hy : y < 256 ^ bs.length) : (x * 256 ^ bs.length + y) / 256 ^ bs.length = x := by
      rw [add_comm, Nat.add_mul_div_right _ _ (by positivity), Nat.div_eq_of_lt hy, zero_add]
    have hhead : a.toNat = b.toNat := by rw [← hquot a.toNat ha, h, hquot b.toNat hb]
    rw [hhead] at h
    rw [BitVec.eq_of_toNat_eq hhead, beNat_inj hlen' (Nat.add_left_cancel h)]

theorem bytesBE_beNat (bs : List Byte) : bytesBE (beNat bs) bs.length = bs :=
  beNat_inj (bytesBE_length _ _) (by rw [beNat_bytesBE, Nat.mod_eq_of_lt (beNat_lt bs)])

/-- A field as wide as its bytes encodes back to them (R63, R64, R128). -/
theorem bytesBE_beField {n : Nat} {p : List Byte} {i : Nat} (h : (slice p i n).length = n) :
    bytesBE (beField (8 * n) p i n).toNat n = slice p i n := by
  have hlt := beNat_lt (slice p i n)
  rw [h] at hlt
  rw [beField, BitVec.toNat_ofNat, Nat.mod_eq_of_lt (by rwa [pow_mul])]
  conv_rhs => rw [← bytesBE_beNat (slice p i n), h]

theorem beField_eq_of_toNat {w k m : Nat} {l : List Byte} {v : BitVec w} (h : beNat (slice l k m) = v.toNat) :
    beField w l k m = v := by
  rw [beField, h, BitVec.ofNat_toNat, BitVec.setWidth_eq]

/-- Bytes that encode a field's value read back as that value. -/
theorem beField_of_slice {n : Nat} {p : List Byte} {i : Nat} {v : BitVec (8 * n)}
    (h : slice p i n = bytesBE v.toNat n) : beField (8 * n) p i n = v := by
  have hlt : v.toNat < 256 ^ n := by
    have := v.isLt
    rwa [pow_mul] at this
  exact beField_eq_of_toNat (by rw [h, beNat_bytesBE, Nat.mod_eq_of_lt hlt])

/-- A nine-byte payload cut after `k` bytes: the bytes before, the byte there, the `m` bytes after. -/
theorem payload_eq_iff (p : Vector Byte 9) {k m : Nat} (hm : k + 1 + m = 9) {as cs : List Byte} {b : Byte}
    (hk : as.length = k) :
    p.toList = as ++ b :: cs ↔ slice p.toList 0 k = as ∧ p[k] = b ∧ slice p.toList (k + 1) m = cs := by
  have hafter : slice p.toList (k + 1) m = p.toList.drop (k + 1) := List.take_of_length_le (by simp; omega)
  have hdrop : p.toList.drop k = p[k] :: p.toList.drop (k + 1) := List.drop_eq_getElem_cons (by simp; omega)
  have hcut : p.toList = slice p.toList 0 k ++ p[k] :: slice p.toList (k + 1) m := by
    rw [hafter, slice, List.drop_zero, ← hdrop, List.take_append_drop]
  constructor
  · intro h
    obtain ⟨hbefore, hrest⟩ := List.append_inj (hcut.symm.trans h) (by simp [slice, hk]; omega)
    exact ⟨hbefore, (List.cons.inj hrest).1, (List.cons.inj hrest).2⟩
  · rintro ⟨rfl, rfl, rfl⟩
    exact hcut

/-- The first two bytes of a payload. -/
theorem slice_zero_two (p : Vector Byte 9) : slice p.toList 0 2 = [p[0], p[1]] := by
  simp [slice, List.take_add_one]

/-- A byte that carries a mask has bits 7 to 4 zero and the mask below them (R83). -/
theorem eq_setWidth_mask_iff {b : Byte} {en : BitVec 4} : b = en.setWidth 8 ↔ b.toNat < 16 ∧ b.setWidth 4 = en := by
  constructor
  · rintro rfl
    have := en.isLt
    exact ⟨by simp; omega, by simp⟩
  · rintro ⟨hlt, rfl⟩
    apply BitVec.eq_of_toNat_eq
    simp
    omega

/-- The average byte is 0 or 1, and 1 exactly in averaged mode (R83). -/
theorem eq_averageByte_iff {b : Byte} {avg : Bool} :
    b = (if avg then 0x01#8 else 0x00#8) ↔ b.toNat < 2 ∧ (b == 1#8) = avg := by
  constructor
  · rintro rfl
    cases avg <;> decide
  · rintro ⟨hlt, rfl⟩
    by_cases hone : b = 1#8
    · simp [hone]
    · have hzero : b = 0#8 := by bv_omega
      simp [hzero]

end Sys2Proof.Machine

end

section
/-! PROOFS. What each decoder accepts, format by format: exactly the encodings of the well-formed instructions of its
own stream. -/

namespace Sys2Proof

open Machine

variable {p : Vector Byte 9} {rest rest' : List Byte} {i j : Instr}

theorem allZero_iff_of_length {l : List Byte} {n : Nat} (h : l.length = n) :
    allZero l = true ↔ l = List.replicate n 0#8 := by
  rw [allZero_iff, h]

/-- CF_NOARG (R82). -/
theorem decodeNoArg_ok_iff :
    decodeNoArg j p rest = .ok i rest' ↔ i = j ∧ p.toList = List.replicate 9 0#8 ∧ rest' = rest := by
  rw [decodeNoArg, ← allZero_iff_of_length p.length_toList]
  split_ifs with hzero <;> simp [hzero, eq_comm]

/-- CF_MAGCFG (R82). -/
theorem decodeMagCfg_ok_iff :
    decodeMagCfg p rest = .ok i rest' ↔ ∃ cc : BitVec 16, ∃ tmrc : Byte, i = .setmag cc tmrc ∧
      tmrc.toNat < Config.tmrcCount ∧ p.toList = bytesBE cc.toNat 2 ++ tmrc :: List.replicate 6 0#8 ∧ rest' = rest := by
  have hpad : (slice p.toList 3 6).length = 6 := by simp [slice]
  simp only [payload_eq_iff p (k := 2) (m := 6) rfl (bytesBE_length _ 2)]
  constructor
  · intro h
    unfold decodeMagCfg at h
    split_ifs at h with hzero htmrc
    cases h
    refine ⟨_, _, rfl, htmrc, ⟨?_, rfl, (allZero_iff_of_length hpad).1 hzero⟩, rfl⟩
    exact (bytesBE_beField (n := 2) (by simp [slice])).symm
  · rintro ⟨cc, tmrc, rfl, htmrc, ⟨hcc, rfl, hzero⟩, rfl⟩
    rw [decodeMagCfg, if_pos ((allZero_iff_of_length hpad).2 hzero), if_pos htmrc, beField_of_slice hcc]

/-- CF_IMUCFG (R82). -/
theorem decodeImuCfg_ok_iff :
    decodeImuCfg p rest = .ok i rest' ↔
      i = .setimu p ∧ (∀ k : Fin 9, p[k].toNat < Config.imuFieldCount[k]) ∧ rest' = rest := by
  rw [decodeImuCfg, ← imuBadField_eq_none]
  cases imuBadField p <;> simp [eq_comm]

/-- CF_SINGLE (R82). -/
theorem decodeSingle_ok_iff :
    decodeSingle p rest = .ok i rest' ↔
      ∃ en : BitVec 4, i = .single en ∧ p.toList = en.setWidth 8 :: List.replicate 8 0#8 ∧ rest' = rest := by
  have hpad : (slice p.toList 1 8).length = 8 := by simp [slice]
  have hcut (b : Byte) : p.toList = b :: List.replicate 8 0#8 ↔ p[0] = b ∧ allZero (slice p.toList 1 8) = true := by
    rw [allZero_iff_of_length hpad]
    exact (payload_eq_iff p (as := []) rfl rfl).trans (and_iff_right rfl)
  simp only [hcut, eq_setWidth_mask_iff]
  unfold decodeSingle
  split_ifs with hzero hmask
  · simp [hzero, hmask, eq_comm]
  · simp [hmask]
  · simp [hzero]

/-- CF_CONT (R82, R188). -/
theorem decodeCont_ok_iff :
    decodeCont p rest = .ok i rest' ↔
      ∃ en : BitVec 4, ∃ avg : Bool, ∃ rate : Byte, ∃ dur : BitVec 48, i = .cont en avg rate dur ∧
        (avg = true → rate = 1#8) ∧ rest' = rest ∧
        p.toList = en.setWidth 8 :: (if avg then 0x01#8 else 0x00#8) :: (if avg then 0x01#8 else rate) ::
          bytesBE dur.toNat 6 := by
  have hcut (x y z : Byte) (l : List Byte) :
      p.toList = x :: y :: z :: l ↔ (p[0] = x ∧ p[1] = y) ∧ p[2] = z ∧ slice p.toList 3 6 = l := by
    have := payload_eq_iff p (k := 2) (m := 6) (as := [x, y]) (b := z) (cs := l) rfl rfl
    simpa [slice_zero_two] using this
  simp only [hcut, eq_setWidth_mask_iff, eq_averageByte_iff]
  constructor
  · intro h
    unfold decodeCont at h
    split_ifs at h with hmask havg hrate
    cases h
    have hone : p[1] = 1#8 → p[2] = 1#8 := fun h1 => not_not.1 fun h2 => hrate ⟨h1, h2⟩
    have hdur := bytesBE_beField (n := 6) (p := p.toList) (i := 3) (by simp [slice])
    refine ⟨_, _, _, _, rfl, fun h => hone (by simpa using h), rfl, ⟨⟨by omega, rfl⟩, by omega, rfl⟩, ?_, hdur.symm⟩
    split_ifs with h
    · exact hone (by simpa using h)
    · rfl
  · rintro ⟨en, avg, rate, dur, rfl, hrate, rfl, ⟨⟨hmask, rfl⟩, havg, rfl⟩, hbyte, hdur⟩
    have hrate' : p[2] = rate := by
      rw [hbyte]
      split_ifs with h
      · exact (hrate h).symm
      · rfl
    subst hrate'
    have hone : ¬ (p[1] = 1#8 ∧ p[2] ≠ 1#8) := fun ⟨h1, h2⟩ => h2 (hrate (by simpa using h1))
    rw [decodeCont, if_neg hmask.not_ge, if_neg havg.not_ge, if_neg hone, beField_of_slice hdur]

/-- An instruction a decoder of the command stream may answer: a well-formed command and no Default form (log 13). -/
def DecodableCommand (i : Instr) : Prop := i.isCommand = true ∧ i.isDefaultForm = false ∧ i.wellFormed = true

/-- What CF_NOARG accepts under an opcode whose command `j` has nine zero bytes. -/
theorem decodable_of_decodeNoArg {op : Byte} (hj : DecodableCommand j) (henc : encode j = op :: List.replicate 9 0#8)
    (h : decodeNoArg j p rest = .ok i rest') : DecodableCommand i ∧ encode i = op :: p.toList ∧ rest' = rest := by
  obtain ⟨rfl, hp, hrest⟩ := decodeNoArg_ok_iff.1 h
  exact ⟨hj, by rw [henc, hp], hrest⟩

/-- A command payload decodes to an instruction exactly when the encoding of the instruction is the opcode
and the payload. -/
theorem decodeOpcode_ok_iff {op : Byte} :
    decodeOpcode op p rest = .ok i rest' ↔ DecodableCommand i ∧ encode i = op :: p.toList ∧ rest' = rest := by
  constructor
  · intro h
    unfold decodeOpcode at h
    split_ifs at h with h1 h2 h3 h4 h5 h6 h7 h8
    · obtain ⟨cc, tmrc, rfl, htmrc, hp, hrest⟩ := decodeMagCfg_ok_iff.1 h
      exact ⟨⟨rfl, rfl, decide_eq_true htmrc⟩, by rw [h1, hp]; rfl, hrest⟩
    · obtain ⟨rfl, hf, hrest⟩ := decodeImuCfg_ok_iff.1 h
      exact ⟨⟨rfl, rfl, decide_eq_true hf⟩, by rw [h2]; rfl, hrest⟩
    · exact decodable_of_decodeNoArg ⟨rfl, rfl, rfl⟩ (by rw [h3]; rfl) h
    · exact decodable_of_decodeNoArg ⟨rfl, rfl, rfl⟩ (by rw [h4]; rfl) h
    · obtain ⟨en, rfl, hp, hrest⟩ := decodeSingle_ok_iff.1 h
      exact ⟨⟨rfl, rfl, rfl⟩, by rw [h5, hp]; rfl, hrest⟩
    · obtain ⟨en, avg, rate, dur, rfl, hrate, hrest, hp⟩ := decodeCont_ok_iff.1 h
      exact ⟨⟨rfl, rfl, decide_eq_true hrate⟩, by rw [h6, hp]; rfl, hrest⟩
    · exact decodable_of_decodeNoArg ⟨rfl, rfl, rfl⟩ (by rw [h7]; rfl) h
    · exact decodable_of_decodeNoArg ⟨rfl, rfl, rfl⟩ (by rw [h8]; rfl) h
  · rintro ⟨⟨hcommand, hform, hwf⟩, henc, hrest⟩
    cases i with
    | setmag cc tmrc =>
      obtain ⟨rfl, hp⟩ := List.cons.inj henc
      exact decodeMagCfg_ok_iff.2 ⟨cc, tmrc, rfl, of_decide_eq_true hwf, hp.symm, hrest⟩
    | setimu f =>
      obtain ⟨rfl, hp⟩ := List.cons.inj henc
      obtain rfl := Vector.toList_inj.1 hp
      exact decodeImuCfg_ok_iff.2 ⟨rfl, of_decide_eq_true hwf, hrest⟩
    | single en =>
      obtain ⟨rfl, hp⟩ := List.cons.inj henc
      exact decodeSingle_ok_iff.2 ⟨en, rfl, hp.symm, hrest⟩
    | cont en avg rate dur =>
      obtain ⟨rfl, hp⟩ := List.cons.inj henc
      exact decodeCont_ok_iff.2 ⟨en, avg, rate, dur, rfl, of_decide_eq_true hwf, hrest, hp.symm⟩
    | getmag | getimu | sendavail | stopall =>
      obtain ⟨rfl, hp⟩ := List.cons.inj henc
      exact decodeNoArg_ok_iff.2 ⟨rfl, hp.symm, hrest⟩
    | setmagDefault | setimuDefault => cases hform
    | fCmpl | fDebug | fMecho | fIecho | fMag | fAll | fMagt | fMagi | fUnrec => cases hcommand

theorem encode_length_of_isCommand (hcommand : i.isCommand = true) : (encode i).length = 10 := by
  cases i with
  | setmag cc tmrc => exact Laws.EncodedLength.setmag cc tmrc
  | setmagDefault => exact Laws.EncodedLength.setmagDefault
  | setimu f => exact Laws.EncodedLength.setimu f
  | setimuDefault => exact Laws.EncodedLength.setimuDefault
  | getmag => exact Laws.EncodedLength.getmag
  | getimu => exact Laws.EncodedLength.getimu
  | single en => exact Laws.EncodedLength.single en
  | cont en avg rate dur => exact Laws.EncodedLength.cont en avg rate dur
  | sendavail => exact Laws.EncodedLength.sendavail
  | stopall => exact Laws.EncodedLength.stopall
  | fCmpl | fDebug | fMecho | fIecho | fMag | fAll | fMagt | fMagi | fUnrec => cases hcommand

/-- A command's encoding is an opcode and nine payload bytes (R81). -/
theorem encode_eq_cons_of_isCommand (hcommand : i.isCommand = true) :
    ∃ op : Byte, ∃ p : Vector Byte 9, encode i = op :: p.toList := by
  obtain ⟨op, payload, henc⟩ := List.exists_cons_of_length_eq_add_one (encode_length_of_isCommand hcommand)
  have hlen : payload.length = 9 := by simpa [henc] using encode_length_of_isCommand hcommand
  exact ⟨op, ⟨payload.toArray, hlen⟩, henc⟩

/-- The command decoder accepts exactly the encodings of the decodable commands. -/
theorem decodeCommand_ok_iff {bs : List Byte} :
    decodeCommand bs = .ok i rest ↔ DecodableCommand i ∧ encode i ++ rest = bs := by
  constructor
  · intro h
    unfold decodeCommand at h
    split at h
    · cases h
    · split at h
      · rename_i op bs payload rest' htake
        obtain ⟨hi, henc, rfl⟩ := decodeOpcode_ok_iff.1 h
        exact ⟨hi, by rw [henc, takeVec_some htake]; rfl⟩
      · cases h
  · rintro ⟨hi, rfl⟩
    obtain ⟨op, p, henc⟩ := encode_eq_cons_of_isCommand hi.1
    rw [henc, List.cons_append, decodeCommand_cons]
    exact decodeOpcode_ok_iff.2 ⟨hi, henc, rfl⟩

theorem payloadLen_of_not_mem_knownFlags {f : Byte} (hf : f ∉ knownFlags) : payloadLen f = 0 := by
  simp only [knownFlags, List.mem_cons, List.not_mem_nil, or_false, not_or] at hf
  simp [payloadLen, hf]

theorem decodeFrame_of_not_mem_knownFlags {f : Byte} (hf : f ∉ knownFlags) (bs : List Byte) :
    decodeFrame (f :: bs) = .ok (.fUnrec f) bs := by
  simp only [knownFlags, List.mem_cons, List.not_mem_nil, or_false, not_or] at hf
  simp [decodeFrame_cons, hf]

theorem withPayload_of_le {n : Nat} (mk : Vector Byte n → Instr) {bs : List Byte} (h : n ≤ bs.length) :
    ∃ p, withPayload n mk bs = .ok (mk p) (bs.drop n) := by
  obtain ⟨p, hp⟩ := takeVec_of_le h
  exact ⟨p, by rw [withPayload, hp]⟩

/-- The frame a flag starts: the payload of the flag's length is read into an inbound instruction whose encoding is the
flag and the payload (R85, R95, R96). -/
theorem decodeFrame_cons_eq_withPayload (f : Byte) : ∃ mk : Vector Byte (payloadLen f) → Instr,
    (∀ bs, decodeFrame (f :: bs) = withPayload (payloadLen f) mk bs) ∧
    ∀ p, (mk p).isCommand = false ∧ (mk p).wellFormed = true ∧ encode (mk p) = f :: p.toList := by
  have hnil (h : payloadLen f = 0) (p : Vector Byte (payloadLen f)) : [] = p.toList :=
    (List.length_eq_zero_iff.1 (p.length_toList.trans h)).symm
  by_cases hf : f ∈ knownFlags
  · simp only [knownFlags, List.mem_cons, List.not_mem_nil, or_false] at hf
    rcases hf with rfl | rfl | rfl | rfl | rfl | rfl | rfl | rfl
    · exact ⟨.fDebug, fun _ => rfl, fun _ => ⟨rfl, rfl, rfl⟩⟩
    · exact ⟨.fMecho, fun _ => rfl, fun _ => ⟨rfl, rfl, rfl⟩⟩
    · exact ⟨.fIecho, fun _ => rfl, fun _ => ⟨rfl, rfl, rfl⟩⟩
    · exact ⟨.fMag, fun _ => rfl, fun _ => ⟨rfl, rfl, rfl⟩⟩
    · exact ⟨.fAll, fun _ => rfl, fun _ => ⟨rfl, rfl, rfl⟩⟩
    · exact ⟨.fMagt, fun _ => rfl, fun _ => ⟨rfl, rfl, rfl⟩⟩
    · exact ⟨.fMagi, fun _ => rfl, fun _ => ⟨rfl, rfl, rfl⟩⟩
    · exact ⟨fun _ => .fCmpl, fun _ => rfl, fun p => ⟨rfl, rfl, congrArg _ (hnil rfl p)⟩⟩
  · have hlen := payloadLen_of_not_mem_knownFlags hf
    refine ⟨fun _ => .fUnrec f, fun bs => ?_, fun p => ⟨rfl, decide_eq_true hf, congrArg _ (hnil hlen p)⟩⟩
    obtain ⟨p, hp⟩ := withPayload_of_le (fun _ => .fUnrec f) (hlen.trans_le (Nat.zero_le bs.length))
    rw [decodeFrame_of_not_mem_knownFlags hf, hp, hlen, List.drop_zero]

/-- The frame decoder accepts exactly the encodings of the well-formed inbound instructions. -/
theorem decodeFrame_ok_iff {bs : List Byte} :
    decodeFrame bs = .ok i rest ↔ i.isCommand = false ∧ i.wellFormed = true ∧ encode i ++ rest = bs := by
  constructor
  · intro h
    cases bs with
    | nil => cases h
    | cons f bs =>
      obtain ⟨mk, hdecode, hmk⟩ := decodeFrame_cons_eq_withPayload f
      rw [hdecode] at h
      obtain ⟨p, rfl, rfl⟩ := withPayload_ok h
      obtain ⟨hinbound, hwf, henc⟩ := hmk p
      exact ⟨hinbound, hwf, by rw [henc]; rfl⟩
  · rintro ⟨hinbound, hwf, rfl⟩
    cases i with
    | fCmpl => rfl
    | fDebug p => exact withPayload_append .fDebug p rest
    | fMecho p => exact withPayload_append .fMecho p rest
    | fIecho p => exact withPayload_append .fIecho p rest
    | fMag p => exact withPayload_append .fMag p rest
    | fAll p => exact withPayload_append .fAll p rest
    | fMagt p => exact withPayload_append .fMagt p rest
    | fMagi p => exact withPayload_append .fMagi p rest
    | fUnrec f => exact decodeFrame_of_not_mem_knownFlags (of_decide_eq_true hwf) rest
    | setmag | setmagDefault | setimu | setimuDefault | getmag | getimu | single | cont | sendavail | stopall =>
      cases hinbound

end Sys2Proof

end

section
/-! PROOFS. The statements on encoding and decoding. -/

namespace Sys2Proof.Claims

open Sys2Proof.Machine

/-- Settles O1: each decoder accepts every encoding of its own stream. -/
theorem decodeOfEncodeIsIdentity : Obligations.DecodeOfEncodeIsIdentity := by
  intro i rest hwf hform
  unfold decodeFor
  split_ifs with hcommand
  · exact decodeCommand_ok_iff.2 ⟨⟨hcommand, hform, hwf⟩, rfl⟩
  · exact decodeFrame_ok_iff.2 ⟨Bool.eq_false_of_not_eq_true hcommand, hwf, rfl⟩

/-- Settles O2: each decoder accepts nothing but encodings of its own stream. -/
theorem encodeOfDecodeIsIdentity : Obligations.EncodeOfDecodeIsIdentity := by
  intro bs i rest
  refine ⟨fun h => ?_, decodeFrame_ok_iff.1⟩
  obtain ⟨⟨hcommand, hform, hwf⟩, henc⟩ := decodeCommand_ok_iff.1 h
  exact ⟨hcommand, hform, hwf, henc⟩

/-- Settles O4: a frame is its flag's payload length read whole, and a command encodes to ten bytes. -/
theorem lengthFromFirstByteAlone : Obligations.LengthFromFirstByteAlone := by
  refine ⟨fun f bs => ?_, by decide, fun f => payloadLen_of_not_mem_knownFlags, fun i => encode_length_of_isCommand⟩
  obtain ⟨mk, hdecode, -⟩ := decodeFrame_cons_eq_withPayload f
  rw [hdecode]
  refine ⟨fun hle => ?_, withPayload_of_lt mk⟩
  obtain ⟨p, hp⟩ := withPayload_of_le mk hle
  exact ⟨mk p, hp⟩

/-- Settles O5: each word is an example of the spec, evaluated by the decoders. -/
theorem writtenWordsDecode : Obligations.WrittenWordsDecode := by
  unfold Obligations.WrittenWordsDecode
  decide

end Sys2Proof.Claims

end

section
/-! PROOFS. What every accepted command does: one command port call per instruction, whose frame is the instruction's
encoding. -/

namespace Sys2Proof.Claims

open Sys2Proof.Machine

/-- The payload bytes a command's frame is built from, before the padding (R181 to R190). -/
def framePayload : Instr → List Byte
  | .setmag cc tmrc => bytesBE cc.toNat 2 ++ [tmrc]
  | .setmagDefault => Config.magDefaultPayload.toList
  | .setimu f => f.toList
  | .setimuDefault => Config.imuDefaultPayload.toList
  | .single en => [en.setWidth 8]
  | .cont en avg rate dur => [en.setWidth 8, (BitVec.ofBool avg).setWidth 8, rateEnc avg rate] ++ bytesBE dur.toNat 6
  | .getmag | .getimu | .sendavail | .stopall => []
  | .fCmpl | .fDebug _ | .fMecho _ | .fIecho _ | .fMag _ | .fAll _ | .fMagt _ | .fMagi _ | .fUnrec _ => []

/-- The field id the operand check of a command fails with (R181, R183). -/
def badField (p : Params) : Instr → Option Byte
  | .setmag cc tmrc => magBadField p cc tmrc
  | .setimu f => imuBadFieldId f
  | .setmagDefault | .setimuDefault | .getmag | .getimu | .single _ | .cont _ _ _ _ | .sendavail | .stopall => none
  | .fCmpl | .fDebug _ | .fMecho _ | .fIecho _ | .fMag _ | .fAll _ | .fMagt _ | .fMagi _ | .fUnrec _ => none

variable {i : Instr} {s : State}

/-- Every command is a call of the command port. -/
theorem exec_command (hcommand : i.isCommand = true) :
    exec i s =
      commandPort (opcodeOf i) (badField s.params i) (mkFrame (opcodeOf i) (framePayload i)) (startOf i) s := by
  cases i with
  | fCmpl | fDebug | fMecho | fIecho | fMag | fAll | fMagt | fMagi | fUnrec => cases hcommand
  | _ => rfl

theorem imuBadFieldId_eq_none {f : Vector Byte 9} :
    imuBadFieldId f = none ↔ ∀ k : Fin 9, f[k].toNat < Config.imuFieldCount[k] := by
  rw [imuBadFieldId, Option.map_eq_none_iff, imuBadField_eq_none]

theorem badField_of_operandsLegal {p : Params} (h : operandsLegal p i) : badField p i = none := by
  cases i with
  | setmag cc tmrc => exact magBadField_of_legal h.1 h.2
  | setimu f => exact imuBadFieldId_eq_none.2 h
  | _ => rfl

/-- A frame is the opcode, the payload and zeros up to ten bytes (R81). -/
theorem mkFrame_toList {op : Byte} {l : List Byte} (h : l.length ≤ 9) :
    (mkFrame op l).toList = op :: (l ++ List.replicate (9 - l.length) 0#8) := by
  apply List.ext_getElem
  · simp; omega
  · intro k h1 h2
    cases k with
    | zero => rfl
    | succ k =>
      rcases Nat.lt_or_ge k l.length with hk | hk
      · simp [mkFrame, hk]
      · simp [mkFrame, hk, List.getElem_append_right]

/-- The frame of a command is its encoding (R82, R83). -/
theorem mkFrame_framePayload (hcommand : i.isCommand = true) :
    (mkFrame (opcodeOf i) (framePayload i)).toList = encode i := by
  rw [mkFrame_toList (by cases i <;> simp [framePayload])]
  cases i with
  | cont en avg rate dur => cases avg <;> simp [framePayload, encode, rateEnc, opcodeOf]
  | fCmpl | fDebug | fMecho | fIecho | fMag | fAll | fMagt | fMagi | fUnrec => cases hcommand
  | _ => simp [framePayload, encode, opcodeOf]

/-- With legal operands a ready engine accepts the command, and the frame is its encoding (R180, R196). -/
theorem exec_command_accepted (hcommand : i.isCommand = true) (hlegal : operandsLegal s.params i)
    (hready : s.ready = true) : ∃ frame : Vector Byte 10, frame.toList = encode i ∧
      exec i s = .next ((startOf i (s.accept (opcodeOf i) frame)).answer .none 0) := by
  refine ⟨_, mkFrame_framePayload hcommand, ?_⟩
  rw [exec_command hcommand, badField_of_operandsLegal hlegal, commandPort_accept hready]

/-- A session start leaves the frame to be sent as it is and makes the engine busy (R222). -/
theorem startOf_sends (hcommand : i.isCommand = true) :
    (startOf i s).cmdBuf = s.cmdBuf ∧ (startOf i s).txIdx = s.txIdx ∧ (startOf i s).busy = true := by
  rcases startOf_cases s hcommand with ⟨hstart, -⟩ | ⟨en, -, hstart⟩ | ⟨en, avg, rate, dur, -, hstart⟩ | ⟨r, hstart, -⟩
  all_goals rw [hstart]
  case inr.inr.inr => cases r <;> exact ⟨rfl, rfl, rfl⟩
  all_goals exact ⟨rfl, rfl, rfl⟩

/-- Settles O21: the command port accepts with the encoding as the frame, and the session start keeps it. -/
theorem acceptedFrameIsEncoding : Obligations.AcceptedFrameIsEncoding := by
  intro i s hcommand hlegal hready
  obtain ⟨frame, hframe, hexec⟩ := exec_command_accepted hcommand hlegal hready
  obtain ⟨hbuf, htx, hbusy⟩ := startOf_sends (s := s.accept (opcodeOf i) frame) hcommand
  exact ⟨_, frame, hexec, hbuf, hframe, htx, hbusy⟩

end Sys2Proof.Claims

end

section
/-! PROOFS. The record's fields: big-endian fields of two, three and four bytes, and where each stands in
the payload. -/

namespace Sys2Proof.Claims

open Sys2Proof.Machine

section fields
variable {p : Nat → Byte} {n k : Nat}

/-- The first `n` bytes of `p` as a payload, cut to `m` bytes at `k`. -/
theorem slice_map_range {m : Nat} (h : k + m ≤ n) :
    slice ((List.range n).map p) k m = (List.range m).map fun j => p (k + j) := by
  apply List.ext_getElem
  · simp [slice]; omega
  · intro j h1 h2
    simp [slice]

theorem beField_two (h : k + 2 ≤ n) : beField 16 ((List.range n).map p) k 2 = p k ++ p (k + 1) := by
  apply beField_eq_of_toNat
  refine Eq.trans ?_ (append2_toNat _ _).symm
  simp [slice_map_range h, List.range_succ, beNat]

theorem beField_three (h : k + 3 ≤ n) : beField 24 ((List.range n).map p) k 3 = p k ++ p (k + 1) ++ p (k + 2) := by
  apply beField_eq_of_toNat
  refine Eq.trans ?_ (append3_toNat _ _ _).symm
  simp [slice_map_range h, List.range_succ, beNat]

theorem beField_four (h : k + 4 ≤ n) :
    beField 32 ((List.range n).map p) k 4 = p k ++ p (k + 1) ++ p (k + 2) ++ p (k + 3) := by
  apply beField_eq_of_toNat
  refine Eq.trans ?_ (append4_toNat _ _ _ _).symm
  simp [slice_map_range h, List.range_succ, beNat]

end fields

theorem axes_get {α : Type} (g : Nat → α) (a : Fin 3) : (axes g)[a] = g a := by
  fin_cases a <;> rfl

theorem magAxes_get {α : Type} (g : Nat → Nat → α) (s : Fin 4) (a : Fin 3) : (magAxes g)[s][a] = g s a := by
  have hs : (magAxes g)[s] = axes (g s) := by fin_cases s <;> rfl
  rw [hs, axes_get]

section record
variable {f : Byte} {p : Nat → Byte}

theorem hasImu_iff : hasImu f = true ↔ f = 0x05#8 ∨ f = 0x07#8 := by simp [hasImu]

theorem hasTemp_iff : hasTemp f = true ↔ f = 0x05#8 ∨ f = 0x06#8 := by simp [hasTemp]

/-- The lengths of the data flags' payloads leave room for the magnetometers and, where the flag has them,
for the inertial axes (R85, R86, R89, R90). -/
theorem payloadLen_data (hf : f = 0x04#8 ∨ f = 0x05#8 ∨ f = 0x06#8 ∨ f = 0x07#8) :
    44 ≤ payloadLen f ∧ (hasImu f = true → 56 ≤ payloadLen f) := by
  rcases hf with rfl | rfl | rfl | rfl <;> decide

/-- Axis `a` of magnetometer `s`, as bytes and as a signed value (R86). -/
theorem decodeRecord_mag {n : Nat} (hn : 44 ≤ n) (s : Fin 4) (a : Fin 3) :
    let r := decodeRecord f ((List.range n).map p)
    r.mag[s][a] = p (6 + 9 * s + 3 * a) ++ p (7 + 9 * s + 3 * a) ++ p (8 + 9 * s + 3 * a) ∧
      r.magv[s][a] = (r.mag[s][a]).toInt := by
  have hraw : magRaw ((List.range n).map p) s a = _ := beField_three (k := 6 + 9 * s + 3 * a) (by omega)
  have h1 : 6 + 9 * s.val + 3 * a.val + 1 = 7 + 9 * s + 3 * a := by omega
  have h2 : 6 + 9 * s.val + 3 * a.val + 2 = 8 + 9 * s + 3 * a := by omega
  rw [h1, h2] at hraw
  simp only [decodeRecord, magAxes_get, hraw, tc_toInt 23, and_self]

/-- The inertial axes of a record that has them (R89, R90). -/
theorem decodeRecord_imu {n : Nat} (hn : 54 ≤ n) (himu : hasImu f = true) :
    let r := decodeRecord f ((List.range n).map p)
    ∃ acc gyr : Vector (BitVec 16) 3, ∃ accv gyrv : Vector Int 3,
      r.acc = some acc ∧ r.gyr = some gyr ∧ r.accv = some accv ∧ r.gyrv = some gyrv ∧
      ∀ a : Fin 3, acc[a] = p (42 + 2 * a) ++ p (43 + 2 * a) ∧ gyr[a] = p (48 + 2 * a) ++ p (49 + 2 * a) ∧
        accv[a] = (acc[a]).toInt ∧ gyrv[a] = (gyr[a]).toInt := by
  refine ⟨_, _, _, _, if_pos himu, if_pos himu, if_pos himu, if_pos himu, fun a => ?_⟩
  have hacc : accRaw ((List.range n).map p) a = _ := beField_two (k := 42 + 2 * a) (by omega)
  have hgyr : gyrRaw ((List.range n).map p) a = _ := beField_two (k := 48 + 2 * a) (by omega)
  have h1 : 42 + 2 * a.val + 1 = 43 + 2 * a := by omega
  have h2 : 48 + 2 * a.val + 1 = 49 + 2 * a := by omega
  rw [h1] at hacc
  rw [h2] at hgyr
  simp only [axes_get, hacc, hgyr, tc_toInt 15, and_self]

/-- The temperature of a record that has it (R88, R90). -/
theorem decodeRecord_temp {n : Nat} (htemp : hasTemp f = true) (hn : tempOffset f + 2 ≤ n) :
    (decodeRecord f ((List.range n).map p)).temp = some (p (tempOffset f) ++ p (tempOffset f + 1)) :=
  (if_pos htemp).trans (congrArg some (beField_two hn))

end record

/-- Settles O13: each field is the big-endian field at its offset, which the payload's length covers. -/
theorem recordFieldsFromPayload : Obligations.RecordFieldsFromPayload := by
  intro f p hf
  obtain ⟨hlen, hlenImu⟩ := payloadLen_data hf
  refine ⟨rfl, beField_four (by omega), beField_two (by omega), decodeRecord_mag hlen, hasImu_iff, hasTemp_iff,
    fun himu => decodeRecord_imu (by have := hlenImu himu; omega) himu, fun himu => ?noImu, fun h5 => ?temp5,
    fun h6 => ?temp6, fun htemp => if_neg (ne_true_of_eq_false htemp), ?cksum⟩
  case noImu =>
    have himu' : ¬ hasImu f = true := ne_true_of_eq_false himu
    exact ⟨if_neg himu', if_neg himu', if_neg himu', if_neg himu'⟩
  case temp5 =>
    subst h5
    exact decodeRecord_temp rfl (by decide)
  case temp6 =>
    subst h6
    exact decodeRecord_temp rfl (by decide)
  case cksum =>
    have hlast : payloadLen f - 2 + 1 = payloadLen f - 1 := by omega
    rw [← hlast]
    exact beField_two (k := payloadLen f - 2) (by omega)

end Sys2Proof.Claims

end

section
/-! PROOFS. The twos-complement decode and the big-endian codec. -/

namespace Sys2Proof.Claims

open Sys2Proof.Machine

/-- The decode of a bit vector's number is its signed value, for every width of at least 1 (R120). -/
theorem tc_toNat {n : Nat} (hn : 1 ≤ n) (x : BitVec n) : tc x.toNat n = x.toInt := by
  obtain ⟨m, rfl⟩ := Nat.exists_eq_add_of_le' hn
  exact tc_toInt m x

/-- A number below 2^n is that of a bit vector, and decodes to its signed value. -/
theorem exists_bitVec_tc {v n : Nat} (hn : 1 ≤ n) (hv : v < 2 ^ n) : ∃ x : BitVec n, x.toNat = v ∧ tc v n = x.toInt :=
  ⟨BitVec.ofNatLT v hv, BitVec.toNat_ofNatLT v hv, by rw [← tc_toNat hn, BitVec.toNat_ofNatLT]⟩

/-- Settles O6: the formula is the definition, the range is that of a signed bit vector, and each corner case is the signed
value of a named bit vector. -/
theorem twosComplementDecode : Obligations.TwosComplementDecode := by
  intro v n hn hv
  obtain ⟨x, -, htc⟩ := exists_bitVec_tc hn hv
  have hhalf : 2 ^ (n - 1) % 2 ^ n = 2 ^ (n - 1) :=
    Nat.mod_eq_of_lt (Nat.pow_lt_pow_right (by decide) (by omega))
  refine ⟨fun hsign => if_pos hsign, fun hsign => if_neg (ne_true_of_eq_false hsign), ?lower, ?upper,
    ?zero, ?intMax, ?intMin, ?allOnes⟩
  case lower => rw [htc]; exact BitVec.le_toInt x
  case upper => rw [htc]; exact BitVec.toInt_le
  case zero => simpa using tc_toNat hn 0#n
  case intMax => rw [← BitVec.toNat_intMax, tc_toNat hn, BitVec.toInt_intMax]
  case intMin =>
    have hmin := tc_toNat hn (BitVec.intMin n)
    rw [BitVec.toNat_intMin, BitVec.toInt_intMin, hhalf] at hmin
    rw [hmin]; push_cast; rfl
  case allOnes => rw [← BitVec.toNat_allOnes, tc_toNat hn, BitVec.toInt_allOnes, if_pos (by omega)]

/-- Settles O7: the remainder of a bit vector's signed value is its number. -/
theorem twosComplementStable : Obligations.TwosComplementStable := by
  intro v n hn hv
  obtain ⟨x, rfl, htc⟩ := exists_bitVec_tc hn hv
  have hmod : (x.toInt % (2 ^ n : Int)).toNat = x.toNat := by
    have := BitVec.toNat_ofInt (n := n) x.toInt
    rw [BitVec.ofInt_toInt] at this
    exact_mod_cast this.symm
  rw [htc, hmod, htc]

/-- The big-endian integer as the weighted sum of the bytes, by induction on the list (R122). -/
theorem beNat_eq_sum (bs : List Byte) :
    beNat bs = ∑ k : Fin bs.length, (bs.get k).toNat * 256 ^ (bs.length - 1 - k.val) := by
  induction bs with
  | nil => rfl
  | cons b bs ih =>
    have hweight (k : Fin bs.length) : bs.length - (k.val + 1) = bs.length - 1 - k.val := by omega
    rw [beNat_cons, ih]
    simp [Fin.sum_univ_succ, hweight]

/-- `n` bytes 0xFF are one below the first number of `n + 1` bytes. -/
theorem beNat_replicate_ff_succ (n : Nat) : beNat (List.replicate n 0xFF) + 1 = 256 ^ n := by
  induction n with
  | zero => rfl
  | succ n ih =>
    have hff : (0xFF : Byte).toNat = 255 := rfl
    rw [List.replicate_succ, beNat_cons, List.length_replicate, hff, add_assoc, ih]
    ring

/-- Settles O8: the weighted sum is beNat's recursion unrolled. -/
theorem bigEndianWeightedSum : Obligations.BigEndianWeightedSum := by
  refine ⟨beNat_eq_sum, fun b => by simp [beNat], fun n => Nat.eq_sub_of_add_eq ?_⟩
  rw [beNat_replicate_ff_succ, pow_mul]
  rfl

/-- Byte `k` of an encoding: masking with 0xFF changes no byte (R128). -/
theorem bytesBE_getElem? {v n k : Nat} (hk : k < n) :
    (bytesBE v n)[k]? = some (BitVec.ofNat 8 ((v >>> (8 * (n - 1 - k))) &&& 0xFF)) := by
  have hmask (x : Nat) : BitVec.ofNat 8 (x &&& 0xFF) = BitVec.ofNat 8 x := by
    rw [BitVec.ofNat_and]; exact BitVec.and_allOnes
  simp [bytesBE, hk, hmask]

theorem bytesBE_zero (n : Nat) : bytesBE 0 n = List.replicate n 0 := by
  induction n with
  | zero => rfl
  | succ n ih => rw [bytesBE_succ, ih, Nat.zero_shiftRight]; rfl

/-- Settles O9: the encoding byte by byte, and its inverse below 256 to the power of its length. -/
theorem bigEndianEncoding : Obligations.BigEndianEncoding := by
  intro v n hv
  exact ⟨bytesBE_length v n, fun k => bytesBE_getElem?, bytesBE_zero n, by rw [beNat_bytesBE, Nat.mod_eq_of_lt hv]⟩

end Sys2Proof.Claims

end

section
/-! PROOFS. The checksum: its range, what a flipped bit does to it, and the parser's use of it. -/

namespace Sys2Proof.Claims

open Sys2Proof.Machine

section checksum
variable {f : Byte} {p : List Byte}

theorem verifyChecksum_iff : verifyChecksum p = true ↔ cksCalc p = cksWire p := by simp [verifyChecksum]

theorem verifyChecksum_eq_false_iff : verifyChecksum p = false ↔ cksCalc p ≠ cksWire p := by simp [verifyChecksum]

theorem cksCalc_le (p : List Byte) : cksCalc p ≤ 255 * (p.length - Config.cksumLen) := by
  have hsum := byteSum_le (p.take (p.length - Config.cksumLen))
  rwa [List.length_take_of_le (Nat.sub_le _ _)] at hsum

/-- The sum of a payload of the longest frame or a shorter one fits 16 bits (R125). -/
theorem cksCalc_lt (hlen : p.length = payloadLen f) : cksCalc p < 2 ^ 16 := by
  have hsum := cksCalc_le p
  have hmax := payloadLen_le f
  omega

/-- The checksum field is two bytes (R123). -/
theorem cksWire_lt (p : List Byte) : cksWire p < 2 ^ 16 := by
  have hfield := beNat_lt (p.drop (p.length - Config.cksumLen))
  have hbytes : (p.drop (p.length - Config.cksumLen)).length ≤ 2 := by
    rw [List.length_drop, Config.cksumLen]; omega
  exact hfield.trans_le (Nat.pow_le_pow_right (by decide) hbytes)

/-- The parser's checksum field is cks_wire (R123, R154). -/
theorem beField_cksum (hlen : p.length = payloadLen f) :
    beField 16 p (payloadLen f - Config.cksumLen) 2 = BitVec.ofNat 16 (cksWire p) := by
  have hfield : slice p (p.length - Config.cksumLen) 2 = p.drop (p.length - Config.cksumLen) :=
    List.take_of_length_le (by rw [List.length_drop, Config.cksumLen]; omega)
  rw [beField, ← hlen, hfield, cksWire]

/-- The parser's comparison of SUM with the checksum field is the unreduced one (R124, R125). -/
theorem ofNat_cksCalc_eq_beField_iff (hlen : p.length = payloadLen f) :
    BitVec.ofNat 16 (cksCalc p) = beField 16 p (payloadLen f - Config.cksumLen) 2 ↔ verifyChecksum p = true := by
  rw [beField_cksum hlen, verifyChecksum_iff, ← BitVec.toNat_inj, BitVec.toNat_ofNat, BitVec.toNat_ofNat,
    Nat.mod_eq_of_lt (cksCalc_lt hlen), Nat.mod_eq_of_lt (cksWire_lt p)]

/-- Changing byte `k` moves the sum of the bytes by the change of that byte. -/
theorem byteSum_modify (g : Byte → Byte) {bs : List Byte} {k : Nat} (hk : k < bs.length) :
    byteSum (bs.modify k g) + bs[k].toNat = byteSum bs + (g bs[k]).toNat := by
  have hcut : bs = bs.take k ++ bs[k] :: bs.drop (k + 1) := by
    rw [← List.drop_eq_getElem_cons hk, List.take_append_drop]
  have hsum := congrArg byteSum hcut
  rw [byteSum_append, byteSum_cons] at hsum
  rw [List.modify_eq_take_cons_drop hk, byteSum_append, byteSum_cons]
  omega

variable {g : Byte → Byte} {k : Nat}

/-- A changed byte before the checksum field changes the sum and leaves the field. -/
theorem verifyChecksum_modify_body (hg : ∀ b, g b ≠ b) (hvalid : verifyChecksum p = true)
    (hk : k < p.length - Config.cksumLen) : verifyChecksum (p.modify k g) = false := by
  rw [verifyChecksum_iff, cksCalc, cksWire] at hvalid
  have hk' : k < (p.take (p.length - Config.cksumLen)).length := by
    rwa [List.length_take_of_le (Nat.sub_le _ _)]
  have hsum := byteSum_modify g hk'
  have hne := mt BitVec.eq_of_toNat_eq (hg (p.take (p.length - Config.cksumLen))[k])
  rw [verifyChecksum_eq_false_iff, cksCalc, cksWire, List.length_modify, List.take_modify,
    List.drop_modify_of_lt _ _ _ _ hk]
  omega

/-- A changed byte of the checksum field changes the field and leaves the sum. -/
theorem verifyChecksum_modify_field (hg : ∀ b, g b ≠ b) (hvalid : verifyChecksum p = true)
    (hk : p.length - Config.cksumLen ≤ k) (hlt : k < p.length) : verifyChecksum (p.modify k g) = false := by
  rw [verifyChecksum_iff, cksCalc, cksWire] at hvalid
  rw [verifyChecksum_eq_false_iff, cksCalc, cksWire, List.length_modify, List.drop_modify_of_ge _ _ _ _ hk,
    List.take_modify, List.modify_eq_self ((List.length_take_le _ _).trans hk), hvalid]
  intro heq
  have hfield := beNat_inj (by simp) heq
  have hbyte := congrArg (·[k - (p.length - Config.cksumLen)]?) hfield
  simp [hk, hlt, Ne.symm (hg _)] at hbyte

end checksum

/-- Settles O10: the bound of the sum of that many bytes. -/
theorem checksumSumFitsSixteenBits : Obligations.ChecksumSumFitsSixteenBits := by
  intro f p _ hlen
  refine ⟨hlen ▸ cksCalc_le p, cksCalc_lt hlen, ?_⟩
  rw [Nat.mod_eq_of_lt (cksCalc_lt hlen), verifyChecksum_iff]

/-- Flipping one bit of a byte gives another byte. -/
theorem xor_bit_ne (b : Byte) (j : Fin 8) : b ^^^ (1#8 <<< j.val) ≠ b := by
  have hbit : ∀ j : Fin 8, 1#8 <<< j.val ≠ 0#8 := by decide
  intro h
  exact hbit j ((BitVec.xor_right_inj b).1 (h.trans BitVec.xor_zero.symm))

/-- Settles O11: a flip changes the sum or the checksum field, never both. -/
theorem singleBitFlipRejected : Obligations.SingleBitFlipRejected := by
  intro f p k j _ _ hvalid hk
  have hflip (b : Byte) : b ^^^ (1#8 <<< j.val) ≠ b := xor_bit_ne b j
  rcases Nat.lt_or_ge k (p.length - Config.cksumLen) with hbody | hfield
  · exact verifyChecksum_modify_body hflip hvalid hbody
  · exact verifyChecksum_modify_field hflip hvalid hfield hk

/-- Settles O12: the parser's comparison is verifyChecksum, and each outcome is its branch of FinishChecksummed. -/
theorem finishAgreesWithVerify : Obligations.FinishAgreesWithVerify := by
  intro f p _ hlen
  have hiff := ofNat_cksCalc_eq_beField_iff hlen
  refine ⟨fun hfail => ?invalid, fun hpass hdebug => ?debug, fun hpass hdata => ?record⟩
  case invalid => exact if_neg (mt hiff.1 (ne_true_of_eq_false hfail))
  case debug => exact (if_pos (hiff.2 hpass)).trans (if_pos hdebug)
  case record => exact (if_pos (hiff.2 hpass)).trans (if_neg hdata)

end Sys2Proof.Claims

end

section
/-! PROOFS. A payload byte before the last, and the reception of a whole frame, byte by byte. -/

namespace Sys2Proof.Claims

open Sys2Proof.Machine

/-- Delivering a payload byte before the last stores it (R153). -/
theorem step_rxByte_store {s : State} {f b : Byte} {rest : List Byte} {es : List Event} (h : s.idx < 58)
    (hin : s.inputs = .rxByte :: es) (hpst : s.pst = .pay) (hrx : s.rxPending = b :: rest) (hflag : s.flag = some f)
    (hne : s.idx + 1 ≠ s.plen) :
    step s = .next (State.storePayload { s.takeEvent es with rxPending := rest } f b h) := by
  rw [step_rxByte_pay hin hpst hrx]
  exact onPayloadByte_store (s := { s.takeEvent es with rxPending := rest }) h hflag hne

/-- Settles O31: the byte is stored, and R126's condition on SUM is the parser's, written with a subtraction. -/
theorem payloadByteStored : Obligations.PayloadByteStored := by
  intro s f b rest es h hin hpst hrx hflag hne
  have hbefore : (s.idx : Int) < (s.plen : Int) - 2 ↔ s.idx + Config.cksumLen < s.plen := by
    rw [Config.cksumLen]; omega
  simp only [step_rxByte_store h hin hpst hrx hflag hne, hbefore]
  rfl

/-- The parser in the payload window of flag `f` and length `n`, opened from `s`, once the bytes `q` have been stored:
`pending` is held by the transport and `es` is to come. -/
def payloadWindow (f : Byte) (n : Nat) (q pending : List Byte) (es : List Event) (s : State) : State :=
  { s with
    pst := .pay, flag := some f, plen := n, idx := q.length, pbuf := fillPayload s.pbuf q
    sum := if checksummed f then BitVec.ofNat 16 (byteSum (q.take (n - Config.cksumLen))) else 0
    rxPending := pending, inputs := es, events := s.events + (q.length + 1) }

section window
variable {f : Byte} {n : Nat} {q : List Byte} {s : State} {es : List Event}

/-- The flag of a frame with a payload opens the window, with nothing stored (R142). -/
theorem step_flag_payloadWindow {pending : List Byte} (hlen : 0 < payloadLen f) (hin : s.inputs = .rxByte :: es)
    (hpst : s.pst = .flag) (hrx : s.rxPending = f :: pending) :
    step s = .next (payloadWindow f (payloadLen f) [] pending es s) := by
  have hsum : (if checksummed f then BitVec.ofNat 16 (byteSum []) else 0) = 0#16 := ite_self _
  rw [step_rxByte_flag hin hpst hrx, onFlagByte_payload hlen, payloadWindow, fillPayload_nil, List.take_nil, hsum]
  rfl

/-- A stored byte keeps SUM the sum of the stored bytes before the checksum field (R126, R153). -/
theorem nextSum_payloadWindow (b : Byte) (pending : List Byte) :
    (payloadWindow f n q pending es s).nextSum f b =
      if checksummed f then BitVec.ofNat 16 (byteSum ((q ++ [b]).take (n - Config.cksumLen))) else 0 := by
  by_cases hck : checksummed f = true
  · by_cases hbefore : q.length + Config.cksumLen < n
    · have hq : q.take (n - Config.cksumLen) = q := List.take_of_length_le (by omega)
      have hqb : (q ++ [b]).take (n - Config.cksumLen) = q ++ [b] := List.take_of_length_le (by simp; omega)
      simp [State.nextSum, payloadWindow, hck, hbefore, hq, hqb, byteSum, BitVec.ofNat_add]
    · have hqb : (q ++ [b]).take (n - Config.cksumLen) = q.take (n - Config.cksumLen) :=
        List.take_append_of_le_length (by omega)
      simp [State.nextSum, payloadWindow, hck, hbefore, hqb]
  · simp [State.nextSum, payloadWindow, hck]

/-- Storing the next byte in the window leaves the window with one byte more stored. -/
theorem storePayload_payloadWindow {b : Byte} {pending : List Byte} (e : Event) (h : q.length < 58) :
    State.storePayload
        { (payloadWindow f n q (b :: pending) (e :: es) s).takeEvent es with rxPending := pending } f b h =
      payloadWindow f n (q ++ [b]) pending es s := by
  have hpbuf := fillPayload_snoc s.pbuf q b h
  have hsum : (payloadWindow f n q pending es s).nextSum f b = _ := nextSum_payloadWindow b pending
  have hlen : (q ++ [b]).length = q.length + 1 := by simp
  conv_rhs => rw [payloadWindow, ← hpbuf, ← hsum, hlen]
  rfl

/-- Bytes that do not fill the payload are stored one per delivery, by induction on the bytes. -/
theorem steps_payloadWindow (hn : n ≤ 58) : ∀ (bs q pending : List Byte), q.length + bs.length < n →
    steps bs.length (payloadWindow f n q (bs ++ pending) (List.replicate bs.length .rxByte ++ es) s) =
      .next (payloadWindow f n (q ++ bs) pending es s)
  | [], q, pending, _ => by rw [List.append_nil]; rfl
  | b :: bs, q, pending, hlt => by
    rw [List.length_cons] at hlt
    have hq : q.length < 58 := by omega
    have hne : q.length + 1 ≠ n := by omega
    have hstep : step (payloadWindow f n q (b :: (bs ++ pending)) (.rxByte :: (List.replicate bs.length .rxByte ++ es)) s)
        = .next _ := step_rxByte_store (f := f) hq rfl rfl rfl rfl hne
    rw [storePayload_payloadWindow] at hstep
    have hrest := steps_payloadWindow hn bs (q ++ [b]) pending (by simp; omega)
    rw [List.append_assoc] at hrest
    exact (steps_succ hstep).trans hrest

/-- The byte that fills the payload executes the frame (R153). -/
theorem step_payloadWindow_last {i : Instr} {b : Byte} {pending : List Byte} (hlen : q.length + 1 = n) (hn : n ≤ 58)
    (hdecode : decodeFrame (f :: (q ++ [b])) = .ok i []) :
    step (payloadWindow f n q (b :: pending) (.rxByte :: es) s) =
      exec i (payloadWindow f n (q ++ [b]) pending es s) := by
  have hq : q.length < 58 := by omega
  have hread : (payloadWindow f n q (b :: pending) (.rxByte :: es) s).readPayload q.length = some q := by
    rw [State.readPayload, payloadWindow, fillPayload_read _ _ hq.le, allWritten_map_some]
  rw [step_rxByte_pay (s := payloadWindow f n q (b :: pending) (.rxByte :: es) s) rfl rfl rfl,
    ← storePayload_payloadWindow .rxByte hq]
  exact onPayloadByte_last (f := f) hq rfl hlen hread hdecode

/-- A window whose payload is stored whole has the registers a received frame leaves. -/
theorem payloadWindow_eq_received {p pending : List Byte} (hp : p ≠ []) :
    payloadWindow f p.length p pending es s = received f p (p.length + 1) pending es s := by
  rw [received, if_neg hp]
  rfl

end window

/-- A one-byte frame executes at its flag byte (R142). -/
theorem step_rxByte_whole {i : Instr} {s : State} {f : Byte} {rest : List Byte} {es : List Event}
    (hdecode : decodeFrame [f] = .ok i []) (hin : s.inputs = .rxByte :: es) (hpst : s.pst = .flag)
    (hrx : s.rxPending = f :: rest) : step s = exec i (received f [] 1 rest es s) := by
  rw [step_rxByte_flag hin hpst hrx, onFlagByte, hdecode]
  rfl

/-- A frame that decodes whole has the payload its flag announces (R85, R95). -/
theorem length_of_decodeFrame {f : Byte} {p : List Byte} {i : Instr} (h : decodeFrame (f :: p) = .ok i []) :
    p.length = payloadLen f := by
  obtain ⟨mk, hdecode, -⟩ := decodeFrame_cons_eq_withPayload f
  rw [hdecode] at h
  obtain ⟨v, -, rfl⟩ := withPayload_ok h
  simp

/-- Settles O32: the flag byte opens the payload window, the bytes before the last fill it, and the last executes the
frame; a frame with no payload executes at its flag byte. -/
theorem byteWiseReceptionExecutesFrame : Obligations.ByteWiseReceptionExecutesFrame := by
  intro i s f p rest es hinbound hwf henc hpst hrx hin
  have hdecode : decodeFrame (f :: p) = .ok i [] :=
    decodeFrame_ok_iff.2 ⟨hinbound, hwf, by rw [henc, List.append_nil]⟩
  have hlen := length_of_decodeFrame hdecode
  rcases List.eq_nil_or_concat' p with rfl | ⟨q, b, rfl⟩
  · rw [List.length_nil, steps_one]
    exact step_rxByte_whole hdecode hin hpst hrx
  · have hn := payloadLen_le f
    have hqb : (q ++ [b]).length = q.length + 1 := by simp
    have hrx' : s.rxPending = f :: (q ++ (b :: rest)) := by rw [hrx]; simp
    have hin' : s.inputs = .rxByte :: (List.replicate q.length .rxByte ++ (.rxByte :: es)) := by
      rw [hin, hqb, List.replicate_succ, List.replicate_succ']
      simp
    have hopen := step_flag_payloadWindow (by omega) hin' hpst hrx'
    have hfill := steps_payloadWindow (f := f) (s := s) (es := .rxByte :: es) hn q [] (b :: rest) (by simp; omega)
    calc steps ((q ++ [b]).length + 1) s
        = steps (q.length + 1) (payloadWindow f (payloadLen f) [] (q ++ (b :: rest))
            (List.replicate q.length .rxByte ++ (.rxByte :: es)) s) := by rw [hqb]; exact steps_succ hopen
      _ = step (payloadWindow f (payloadLen f) q (b :: rest) (.rxByte :: es) s) :=
          (steps_add q.length 1 hfill).trans (steps_one _)
      _ = exec i (payloadWindow f (payloadLen f) (q ++ [b]) rest es s) := step_payloadWindow_last (by omega) hn hdecode
      _ = exec i (received f (q ++ [b]) ((q ++ [b]).length + 1) rest es s) := by
          rw [← hlen, payloadWindow_eq_received (by simp)]

end Sys2Proof.Claims

end

section
/-! PROOFS. The parser's events: the flag byte, the byte that completes a payload, the timeouts, and the events that are
not enabled. -/

namespace Sys2Proof.Claims

open Sys2Proof.Machine

section events
variable {s : State} {es : List Event}

/-- A request executes the instruction it is (R180). -/
theorem step_cmdRequest {r : Request} {i : Instr} (hin : s.inputs = .cmdRequest r :: es) (hi : r.instr = some i) :
    step s = exec i (s.takeEvent es) := by
  rw [step_cons hin, onEvent, onRequest, hi]

/-- A flag that announces a payload opens the payload window (R142). -/
theorem step_rxByte_beginPayload {f : Byte} {rest : List Byte} (hlen : 0 < payloadLen f)
    (hin : s.inputs = .rxByte :: es) (hpst : s.pst = .flag) (hrx : s.rxPending = f :: rest) :
    step s = .next ((State.setFlag { s.takeEvent es with rxPending := rest } f).beginPayload (payloadLen f)) := by
  rw [step_rxByte_flag hin hpst hrx, onFlagByte_payload hlen]

/-- SUM does not take the last payload byte, which no frame has before its checksum field (R126, R153). -/
theorem nextSum_of_last (f b : Byte) (hlast : s.idx + 1 = s.plen) : s.nextSum f b = s.sum := by
  have hafter : ¬ s.idx + Config.cksumLen < s.plen := by rw [Config.cksumLen]; omega
  exact if_neg fun h => hafter h.2

/-- The last payload byte goes to PBUF and is counted, and changes nothing else (R153). -/
theorem storePayload_of_last (f b : Byte) (h : s.idx < 58) (hlast : s.idx + 1 = s.plen) :
    s.storePayload f b h = { s with pbuf := s.pbuf.set s.idx (some b), idx := s.idx + 1 } := by
  rw [State.storePayload, nextSum_of_last f b hlast]

/-- A timeout in the flag window ends the read with Invalid(Absent, 0) (R152). -/
theorem step_rxTimeout_flag (hin : s.inputs = .rxTimeout :: es) (hpst : s.pst = .flag) :
    step s = finishRead (.invalid .absent 0#8) (s.takeEvent es) := by
  rw [step_cons hin, onEvent, onRxTimeout, State.takeEvent_pst, hpst]

/-- A timeout in the payload window ends the read with Invalid(Short, FLAG) (R156). -/
theorem step_rxTimeout_pay {f : Byte} (hin : s.inputs = .rxTimeout :: es) (hpst : s.pst = .pay)
    (hflag : s.flag = some f) : step s = finishRead (.invalid .short f) (s.takeEvent es) := by
  rw [step_cons hin, onEvent, onRxTimeout, State.takeEvent_pst, hpst, State.takeEvent_flag, hflag]

end events

section transport
variable {s t : State} {r : Result}

theorem collect_rxPending (r : Result) (s : State) : (collect r s).rxPending = s.rxPending := by
  rcases collect_cases r s with ⟨rec, -, ⟨-, h⟩ | ⟨-, h⟩⟩ | ⟨reason, f, -, ⟨-, h⟩ | ⟨-, h⟩⟩ | ⟨-, h⟩ | ⟨d, -, h⟩ |
    ⟨f, e, -, h⟩
  all_goals rw [h]; rfl

theorem recordEcho_rxPending (r : Result) (s : State) : (s.recordEcho r).rxPending = s.rxPending := by
  cases r <;> rfl

theorem ackPhase_rxPending (r : Result) (s : State) : (ackPhase r s).rxPending = s.rxPending := by
  obtain ⟨li, lf, -, ⟨-, h⟩ | ⟨-, h⟩⟩ := ackPhase_cases r s
  all_goals rw [h]; rfl

/-- The delivery of a result takes no byte from the transport (R159). -/
theorem deliver_rxPending (h : deliver r s = .next t) : t.rxPending = s.rxPending := by
  rcases deliver_cases h with ⟨-, rfl⟩ | ⟨-, -, m, -, rfl⟩ | ⟨-, -, rfl⟩
  · exact collect_rxPending r s
  · exact recordEcho_rxPending r s
  · exact ackPhase_rxPending r s

end transport

section disabled
variable {s : State}

theorem onRxByte_of_not_rxReady (h : s.rxReady = false) : onRxByte s = .next s := by
  unfold onRxByte
  cases s.rxPending with
  | nil => rfl
  | cons b rest => rcases State.pst_of_not_rxReady h with hpst | hpst <;> simp only [hpst]

theorem onRxByte_of_rxPending_nil (h : s.rxPending = []) : onRxByte s = .next s := by
  rw [onRxByte, h]

theorem onRxTimeout_of_not_rxReady (h : s.rxReady = false) : onRxTimeout s = .next s := by
  rcases State.pst_of_not_rxReady h with hpst | hpst <;> rw [onRxTimeout, hpst]

theorem onTxAccept_of_not_txValid (h : s.txValid = false) : onTxAccept s = .next s := by
  rw [State.txValid, Bool.and_eq_false_iff, decide_eq_false_iff_not] at h
  unfold onTxAccept
  by_cases hsend : s.sending = false
  · exact if_pos hsend
  · rw [if_neg hsend, dif_neg (h.resolve_left hsend)]

end disabled

/-- Settles O29: the three events that execute an instruction, each with its event taken and its byte consumed. -/
theorem stepRunsDecodedInstruction : Obligations.StepRunsDecodedInstruction := by
  refine ⟨fun s r i es hin hi => ?request, fun s b rest es i hin hpst hrx hdecode => ?flagByte,
    fun s f b p rest es i h hin hpst hrx hflag hlast hread hdecode => ?lastByte⟩
  case request => exact step_cmdRequest hin hi
  case flagByte => exact step_rxByte_whole hdecode hin hpst hrx
  case lastByte =>
    let u : State := { s.takeEvent es with rxPending := rest }
    have hexec : onPayloadByte b u = exec i (u.storePayload f b h) :=
      onPayloadByte_last (s := u) h hflag hlast hread hdecode
    rw [step_rxByte_pay hin hpst hrx, hexec, storePayload_of_last (s := u) f b h hlast]
    rfl

/-- Settles O30: the flags with a payload open its window, and the others are whole frames, executed at once. -/
theorem flagByteDispatch : Obligations.FlagByteDispatch := by
  intro s b rest es hin hpst hrx t payload
  have hpayload (hlen : 0 < payloadLen b) : step s = .next (payload (payloadLen b)) :=
    step_rxByte_beginPayload hlen hin hpst hrx
  have hwhole {i : Instr} (hdecode : decodeFrame [b] = .ok i []) : step s = exec i t :=
    step_rxByte_whole hdecode hin hpst hrx
  refine ⟨?_, ?_, ?_, ?_, ?_, ?_, ?_, ?complete, fun hb => ?unrecognized, by simp [checksummed, or_assoc]⟩
  case complete => rintro rfl; exact hwhole rfl
  case unrecognized => exact hwhole (decodeFrame_of_not_mem_knownFlags hb [])
  all_goals rintro rfl; exact hpayload (by decide)

/-- Settles O33: the read ends with the result, and its delivery takes no byte. -/
theorem timeoutInFlagWindowIsAbsent : Obligations.TimeoutInFlagWindowIsAbsent := by
  intro s es hin hpst
  have hstep := step_rxTimeout_flag hin hpst
  refine ⟨hstep, fun t ht => ?_⟩
  rw [hstep] at ht
  exact deliver_rxPending (s := (s.takeEvent es).endRead) ht

/-- Settles O34: the rule of the payload window's timeout, for every flag. -/
theorem timeoutInPayloadWindowIsShort : Obligations.TimeoutInPayloadWindowIsShort :=
  fun _ _ _ hin hpst hflag => step_rxTimeout_pay hin hpst hflag

/-- Settles O35: each of the four events drops when its enabling condition fails. -/
theorem disabledEventsChangeNothing : Obligations.DisabledEventsChangeNothing := by
  intro s e es hin hdisabled
  rw [step_cons hin]
  rcases hdisabled with ⟨rfl, h⟩ | ⟨rfl, h⟩ | ⟨rfl, h⟩ | ⟨rfl, h⟩
  · exact onRxByte_of_not_rxReady (s := s.takeEvent es) h
  · exact onRxByte_of_rxPending_nil (s := s.takeEvent es) h
  · exact onRxTimeout_of_not_rxReady (s := s.takeEvent es) h
  · exact onTxAccept_of_not_txValid (s := s.takeEvent es) h

end Sys2Proof.Claims

end

section
/-! PROOFS. The checksummed frames by their checksum field, and every frame and timeout in Collecting. -/

namespace Sys2Proof.Claims

open Sys2Proof.Machine

section checksummedFrames
variable (s : State)

/-- A payload whose last two bytes stand at `k`: SUM is compared with them (R154, R157). -/
theorem finishChecksummed_vector {f : Byte} {n k : Nat} (p : Vector Byte n) (hlen : payloadLen f = k + 2)
    (hk : k + 1 < n) (sum : BitVec 16) :
    finishChecksummed f p.toList sum =
      if sum = p[k] ++ p[k + 1] then
        (if f = 0x01#8 then .debug (slice p.toList 0 16) else .record (decodeRecord f p.toList))
      else .invalid .checksum f := by
  apply finishChecksummed_eq
  rw [hlen, Config.cksumLen, Nat.add_sub_cancel]
  exact beField_vector p k hk

theorem exec_fDebug (p : Vector Byte 18) : exec (.fDebug p) s = finishRead
    (if s.sum = p[16] ++ p[17] then .debug (p.toList.take 16) else .invalid .checksum 0x01#8) s :=
  congrArg (finishRead · s) (finishChecksummed_vector p rfl _ s.sum)

theorem exec_fMag (p : Vector Byte 44) : exec (.fMag p) s = finishRead
    (if s.sum = p[42] ++ p[43] then .record (decodeRecord 0x04#8 p.toList) else .invalid .checksum 0x04#8) s :=
  congrArg (finishRead · s) (finishChecksummed_vector p rfl _ s.sum)

theorem exec_fAll (p : Vector Byte 58) : exec (.fAll p) s = finishRead
    (if s.sum = p[56] ++ p[57] then .record (decodeRecord 0x05#8 p.toList) else .invalid .checksum 0x05#8) s :=
  congrArg (finishRead · s) (finishChecksummed_vector p rfl _ s.sum)

theorem exec_fMagt (p : Vector Byte 46) : exec (.fMagt p) s = finishRead
    (if s.sum = p[44] ++ p[45] then .record (decodeRecord 0x06#8 p.toList) else .invalid .checksum 0x06#8) s :=
  congrArg (finishRead · s) (finishChecksummed_vector p rfl _ s.sum)

theorem exec_fMagi (p : Vector Byte 56) : exec (.fMagi p) s = finishRead
    (if s.sum = p[54] ++ p[55] then .record (decodeRecord 0x07#8 p.toList) else .invalid .checksum 0x07#8) s :=
  congrArg (finishRead · s) (finishChecksummed_vector p rfl _ s.sum)

end checksummedFrames

theorem configOp_iff {op : Byte} : configOp op = true ↔ op = 1#8 ∨ op = 2#8 ∨ op = 3#8 ∨ op = 4#8 := by
  simp [configOp, or_assoc]

/-- The report of a session whose MISSING has been settled (R237). -/
theorem report_settleMissing (s : State) (st : SeqState) :
    s.settleMissing.report st = sessionReport s st s.recCount s.invCount s.lastError := by
  have hmissing : (if s.expValid then some s.settleMissing.missing else none) =
      if s.expValid then some ((s.expected : Int) - (s.recCount : Int)) else none := by
    by_cases h : s.expValid = true <;> simp [State.settleMissing, h]
  rw [sessionReport, ← hmissing]
  simp only [← configOp_iff]
  rfl

/-- With no read open, the end of a session is the one R237 states. -/
theorem endSession_eq_sessionEnded {s : State} (st : SeqState) (hpst : s.pst = .idle) :
    s.endSession st = sessionEnded s st s.lastError := by
  have hreport := report_settleMissing { s with seqState := st } st
  unfold State.endSession
  simp only [hreport]
  cases s
  subst hpst
  rfl

section collecting
variable {s : State}

/-- A record in Collecting (R230, R234). -/
theorem collect_record (r : Record) (s : State) : collect (.record r) s.endRead = recordCollected r s := by
  by_cases hmode : s.mode = .single
  · simp only [recordCollected, if_pos hmode]
    refine (if_pos hmode).trans ?_
    rw [endSession_eq_sessionEnded _ rfl]
    rfl
  · simp only [recordCollected, if_neg hmode]
    exact if_neg hmode

/-- An Invalid result in Collecting (R231). -/
theorem collect_invalid (reason : InvalidReason) (f : Byte) (s : State) :
    collect (.invalid reason f) s.endRead = invalidCounted reason f (InvalidReason.error reason) s := by
  by_cases hlimit : s.invCount + 1 ≤ 9
  · have hlimit' : ¬ Config.invalidLimit < s.invCount + 1 := hlimit.not_gt
    simp only [invalidCounted, if_pos hlimit]
    exact if_neg hlimit'
  · have hlimit' : Config.invalidLimit < s.invCount + 1 := not_le.1 hlimit
    simp only [invalidCounted, if_neg hlimit]
    refine (if_pos hlimit').trans ?_
    rw [endSession_eq_sessionEnded _ rfl]
    rfl

theorem finishRead_collecting (hcol : s.seqState = .collecting) (r : Result) :
    finishRead r s = .next (collect r s.endRead) :=
  deliver_collecting (s := s.endRead) hcol r

theorem finishRead_record (hcol : s.seqState = .collecting) (r : Record) :
    finishRead (.record r) s = .next (recordCollected r s) := by
  rw [finishRead_collecting hcol, collect_record]

theorem finishRead_invalid (hcol : s.seqState = .collecting) (reason : InvalidReason) (f : Byte) :
    finishRead (.invalid reason f) s = .next (invalidCounted reason f (InvalidReason.error reason) s) := by
  rw [finishRead_collecting hcol, collect_invalid]

/-- A timeout in the flag window is counted (R152, R231). -/
theorem step_absent {es : List Event} (hcol : s.seqState = .collecting) (hin : s.inputs = .rxTimeout :: es)
    (hpst : s.pst = .flag) : step s = .next (invalidCounted .absent 0#8 .invalidFrame (s.takeEvent es)) :=
  (step_rxTimeout_flag hin hpst).trans (finishRead_invalid (s := s.takeEvent es) hcol .absent 0#8)

/-- A timeout in the payload window is counted (R156, R231). -/
theorem step_short {f : Byte} {es : List Event} (hcol : s.seqState = .collecting) (hin : s.inputs = .rxTimeout :: es)
    (hpst : s.pst = .pay) (hflag : s.flag = some f) :
    step s = .next (invalidCounted .short f .invalidFrame (s.takeEvent es)) :=
  (step_rxTimeout_pay hin hpst hflag).trans (finishRead_invalid (s := s.takeEvent es) hcol .short f)

end collecting

/-- Settles O39: with SUM equal to the checksum field the result is the record, in each format. -/
theorem dataFrameIsCollected : Obligations.DataFrameIsCollected := by
  intro s hcol
  refine ⟨fun p hsum => ?mag, fun p hsum => ?all, fun p hsum => ?magt, fun p hsum => ?magi⟩
  case mag => rw [exec_fMag, if_pos hsum, finishRead_record hcol]
  case all => rw [exec_fAll, if_pos hsum, finishRead_record hcol]
  case magt => rw [exec_fMagt, if_pos hsum, finishRead_record hcol]
  case magi => rw [exec_fMagi, if_pos hsum, finishRead_record hcol]

/-- Settles O40: with SUM equal to the checksum field the result is the data bytes, which the loop emits. -/
theorem debugFrameIsEmitted : Obligations.DebugFrameIsEmitted := by
  intro s p hcol hsum
  rw [exec_fDebug, if_pos hsum, finishRead_collecting hcol]
  rfl

/-- Settles O42: with SUM other than the checksum field the result is Invalid(Checksum, FLAG), in each format. -/
theorem checksumFailureIsCounted : Obligations.ChecksumFailureIsCounted := by
  intro s hcol
  refine ⟨fun p hsum => ?debug, fun p hsum => ?mag, fun p hsum => ?all, fun p hsum => ?magt, fun p hsum => ?magi⟩
  case debug => rw [exec_fDebug, if_neg hsum, finishRead_invalid hcol, InvalidReason.error]
  case mag => rw [exec_fMag, if_neg hsum, finishRead_invalid hcol, InvalidReason.error]
  case all => rw [exec_fAll, if_neg hsum, finishRead_invalid hcol, InvalidReason.error]
  case magt => rw [exec_fMagt, if_neg hsum, finishRead_invalid hcol, InvalidReason.error]
  case magi => rw [exec_fMagi, if_neg hsum, finishRead_invalid hcol, InvalidReason.error]

/-- Settles O43: an unrecognised flag and the two timeouts are Invalid results, each counted with its reason's error. -/
theorem unrecognisedFlagAndTimeoutsAreCounted : Obligations.UnrecognisedFlagAndTimeoutsAreCounted := by
  intro s hcol
  refine ⟨fun f => ?unrecognized, fun es hin hpst => ?absent, fun es f hin hpst hflag => ?short⟩
  case unrecognized => exact finishRead_invalid hcol .unrecognized f
  case absent => exact step_absent hcol hin hpst
  case short => exact step_short hcol hin hpst hflag

/-- A Collecting state after `n` expired flag windows in a row within the threshold, with `es` still to come. -/
def absentCounted (n : Nat) (es : List Event) (s : State) : State :=
  { s with
    invCount := s.invCount + n, lastInv := .reason .absent, lastInvFlag := 0, lastError := .invalidFrame
    inputs := es, events := s.events + n }

theorem absentCounted_absentCounted (m n : Nat) (es es' : List Event) (s : State) :
    absentCounted n es' (absentCounted m es s) = absentCounted (m + n) es' s := by
  simp [absentCounted, Nat.add_assoc]

section absent
variable {es : List Event}

/-- An expired flag window within the threshold leaves the next one open (R231). -/
theorem step_absent_of_lt {s : State} (hcol : s.seqState = .collecting) (hin : s.inputs = .rxTimeout :: es)
    (hpst : s.pst = .flag) (hlt : s.invCount < 9) : step s = .next (absentCounted 1 es s) := by
  have hlimit : (s.takeEvent es).invCount + 1 ≤ 9 := hlt
  rw [step_absent hcol hin hpst, invalidCounted, if_pos hlimit]
  cases s
  subst hpst
  rfl

/-- Expired flag windows up to the threshold are counted one by one, by induction on their number. -/
theorem steps_absent : ∀ (n : Nat) {s : State}, s.seqState = .collecting → s.pst = .flag → s.invCount + (n + 1) ≤ 9 →
    s.inputs = List.replicate (n + 1) .rxTimeout ++ es → steps (n + 1) s = .next (absentCounted (n + 1) es s)
  | 0, s, hcol, hpst, hle, hin => by
    rw [steps_one]
    exact step_absent_of_lt hcol hin hpst (by omega)
  | n + 1, s, hcol, hpst, hle, hin => by
    have hfirst := step_absent_of_lt hcol hin hpst (by omega)
    have hcount : s.invCount + 1 + (n + 1) ≤ 9 := by omega
    have hrest := steps_absent n (s := absentCounted 1 (List.replicate (n + 1) .rxTimeout ++ es) s) hcol hpst hcount rfl
    rw [absentCounted_absentCounted, Nat.add_comm 1] at hrest
    exact (steps_succ hfirst).trans hrest

end absent

/-- Settles O44: nine windows stay within the threshold, and the tenth is past it. -/
theorem tenAbsentFramesAbort : Obligations.TenAbsentFramesAbort := by
  intro s es hcol hpst hzero hin bad
  have hnine : steps 9 s = .next (absentCounted 9 (.rxTimeout :: es) s) :=
    steps_absent 8 hcol hpst (by rw [hzero]) hin
  have hbad : absentCounted 9 (.rxTimeout :: es) s = { bad 9 with lastError := .invalidFrame } := by
    simp only [absentCounted, bad, hzero, hin]
    rfl
  have htenth := step_absent (s := absentCounted 9 (.rxTimeout :: es) s) hcol rfl hpst
  have hpast : ¬ ((absentCounted 9 (.rxTimeout :: es) s).takeEvent es).invCount + 1 ≤ 9 := by simp [absentCounted]
  refine ⟨hbad ▸ hnine, ?_⟩
  rw [steps_add 9 1 hnine, steps_one, htenth, invalidCounted, if_neg hpast]
  simp only [absentCounted, bad, hzero, hin]
  rfl

end Sys2Proof.Claims

end

section
/-! PROOFS. The echo phase of a configuration exchange with a result that is no echo. -/

namespace Sys2Proof.Claims

open Sys2Proof.Machine

/-- The echo phase has failed and the acknowledgment read is open (R224). -/
def echoMissed (s : State) : State := { s with cfgMatch := false, sub := .ack, pst := .flag }

theorem recordEcho_op (r : Result) (s : State) : (s.recordEcho r).op = s.op := by
  cases r <;> rfl

section echoPhase
variable {s : State} (hseq : s.seqState = .configSent) (hsub : s.sub = .echo)
  (hop : s.op = 1#8 ∨ s.op = 2#8 ∨ s.op = 3#8 ∨ s.op = 4#8)
include hseq hsub hop

/-- A result that is no echo fails the match, whatever it is (R224, R225). -/
theorem finishRead_of_not_echo {r : Result} (hr : ∀ f e, r ≠ .echo f e) :
    finishRead r s = .next (echoMissed (s.recordEcho r)) := by
  have hmatch : (s.endRead.recordEcho r).echoOk r = .ok false := echoOk_of_not_echo hr (by rwa [recordEcho_op])
  rw [finishRead, deliver_echo (s := s.endRead) hseq hsub, echoPhase]
  simp only [hmatch]
  cases r <;> rfl

/-- An Invalid result is recorded as well (R224). -/
theorem finishRead_invalid_of_echo (reason : InvalidReason) (f : Byte) :
    finishRead (.invalid reason f) s = .next (invalidRecorded reason f (echoMissed s)) :=
  finishRead_of_not_echo hseq hsub hop (by simp)

/-- A checksummed frame fails the match whether its checksum holds or not, and is recorded when it does not. -/
theorem finishRead_checked_of_echo {r : Result} (hr : ∀ f e, r ≠ .echo f e) (hs : s.recordEcho r = s) (f : Byte)
    (ok : Prop) [Decidable ok] :
    finishRead (if ok then r else .invalid .checksum f) s =
      .next (if ok then echoMissed s else invalidRecorded .checksum f (echoMissed s)) := by
  split_ifs
  · rw [finishRead_of_not_echo hseq hsub hop hr, hs]
  · exact finishRead_invalid_of_echo hseq hsub hop .checksum f

end echoPhase

/-- Settles O46: none of these results is an echo, and the invalid ones are recorded. -/
theorem otherFrameInEchoPhaseFailsTheMatch : Obligations.OtherFrameInEchoPhaseFailsTheMatch := by
  intro s hseq hsub hop t bad
  refine ⟨?complete, fun f => ?unrecognized, fun p => ?debug, fun p => ?mag, fun p => ?all, fun p => ?magt,
    fun p => ?magi, fun es hin hpst => ?absent, fun es f hin hpst hflag => ?short⟩
  case complete => exact finishRead_of_not_echo hseq hsub hop (by simp)
  case unrecognized => exact finishRead_invalid_of_echo hseq hsub hop .unrecognized f
  case debug => exact (exec_fDebug s p).trans (finishRead_checked_of_echo hseq hsub hop (by simp) rfl _ _)
  case mag => exact (exec_fMag s p).trans (finishRead_checked_of_echo hseq hsub hop (by simp) rfl _ _)
  case all => exact (exec_fAll s p).trans (finishRead_checked_of_echo hseq hsub hop (by simp) rfl _ _)
  case magt => exact (exec_fMagt s p).trans (finishRead_checked_of_echo hseq hsub hop (by simp) rfl _ _)
  case magi => exact (exec_fMagi s p).trans (finishRead_checked_of_echo hseq hsub hop (by simp) rfl _ _)
  case absent =>
    exact (step_rxTimeout_flag hin hpst).trans
      (finishRead_invalid_of_echo (s := s.takeEvent es) hseq hsub hop .absent 0#8)
  case short =>
    exact (step_rxTimeout_pay hin hpst hflag).trans
      (finishRead_invalid_of_echo (s := s.takeEvent es) hseq hsub hop .short f)

end Sys2Proof.Claims

end

section
/-! PROOFS. The commands in a ready state: the remaining configuration commands, the measurement commands, SENDAVAIL and
STOPALL, with the frame of each written out byte by byte. -/

namespace Sys2Proof.Claims

open Sys2Proof.Machine

section imuFields
variable {f : Vector Byte 9}

/-- The field SETIMU is refused for is the lowest illegal one (R183). -/
theorem imuBadField_eq_some_iff {k : Fin 9} :
    imuBadField f = some k ↔ Config.imuFieldCount[k] ≤ f[k].toNat ∧
      ∀ j : Fin 9, j < k → f[j].toNat < Config.imuFieldCount[j] := by
  rw [imuBadField, ← Fin.find?_eq_find?_finRange, Fin.find?_eq_some_iff]
  simp

theorem imuBadFieldId_of_lowest {k : Fin 9} (hbad : Config.imuFieldCount[k] ≤ f[k].toNat)
    (hlow : ∀ j : Fin 9, j < k → f[j].toNat < Config.imuFieldCount[j]) :
    imuBadFieldId f = some (BitVec.ofNat 8 (16 + k.val)) := by
  rw [imuBadFieldId, imuBadField_eq_some_iff.2 ⟨hbad, hlow⟩]
  rfl

/-- A frame whose nine payload bytes are given as a vector (R183, R184). -/
theorem mkFrame_toList_vector (op : Byte) (f : Vector Byte 9) :
    mkFrame op f.toList = #v[op, f[0], f[1], f[2], f[3], f[4], f[5], f[6], f[7], f[8]] := by
  rw [mkFrame_eq]
  simp

/-- An open default byte is below its count, as long as the count fits a byte (R184, log 9). -/
theorem imuDefaultByte_lt (k : Nat) {count : Nat} (hpos : 0 < count) (hbyte : count ≤ 256) :
    (Config.imuDefaultByte k count).toNat < count := by
  have hlt := Nat.mod_lt (Config.imuDefaultRaw k) hpos
  rw [Config.imuDefaultByte, BitVec.toNat_ofNat, Nat.mod_eq_of_lt (by omega)]
  exact hlt

/-- The default payload is nine legal fields (R184). -/
theorem imuDefaultPayload_legal (k : Fin 9) : Config.imuDefaultPayload[k].toNat < Config.imuFieldCount[k] := by
  fin_cases k <;> exact imuDefaultByte_lt _ (by decide) (by decide)

end imuFields

/-- Settles O15: the command port's rule on each answer of the field check, whose failing field is the lowest illegal
one. -/
theorem setimuInReadyState : Obligations.SetimuInReadyState := by
  intro f s hready
  refine ⟨fun hlegal => ?legal, fun k hbad hlow => ?illegal⟩
  case legal =>
    rw [← mkFrame_toList_vector]
    exact commandPort_configStarted hready (imuBadFieldId_eq_none.2 hlegal)
  case illegal => exact commandPort_refusedWith hready (imuBadFieldId_of_lowest hbad hlow)

/-- Settles O16: the payload is the open default one, whose bytes are legal fields. -/
theorem setimuDefaultInReadyState : Obligations.SetimuDefaultInReadyState := by
  refine ⟨Config.imuDefaultPayload, imuDefaultPayload_legal, fun s hready => ?_⟩
  rw [← mkFrame_toList_vector]
  exact commandPort_configStarted hready rfl

/-- Settles O3: a Default frame is, byte for byte, a Custom frame with legal fields, and the decoder answers the
Custom form. -/
theorem defaultFramesDecodeAsCustom : Obligations.DefaultFramesDecodeAsCustom := by
  intro rest
  have htmrc : (BitVec.ofNat 8 Config.magDefaultTmrc.val : Byte).toNat ≤ 13 := by
    have := Config.magDefaultTmrc.isLt
    rw [BitVec.toNat_ofNat]
    omega
  refine ⟨⟨_, htmrc, ?setmag⟩, ⟨Config.imuDefaultPayload, imuDefaultPayload_legal, ?setimu⟩⟩
  case setmag => exact decodeOfEncodeIsIdentity (.setmag 200 _) rest (decide_eq_true (Nat.lt_succ_of_le htmrc)) rfl
  case setimu =>
    exact decodeOfEncodeIsIdentity (.setimu Config.imuDefaultPayload) rest (decide_eq_true imuDefaultPayload_legal) rfl

/-- Settles O17: each is accepted with its opcode and zeros. -/
theorem getConfigInReadyState : Obligations.GetConfigInReadyState :=
  fun _ hready => ⟨commandPort_configStarted hready rfl, commandPort_configStarted hready rfl⟩

/-- The mask byte has zeros above the mask (R83). -/
theorem setWidth_mask (en : BitVec 4) : en.setWidth 8 = 0#4 ++ en := BitVec.setWidth_eq_append (by decide)

/-- The frame of SINGLE (R187). -/
theorem mkFrame_single (en : BitVec 4) :
    mkFrame 0x05#8 [en.setWidth 8] = #v[0x05, 0#4 ++ en, 0, 0, 0, 0, 0, 0, 0, 0] := by
  rw [setWidth_mask, mkFrame_eq]
  rfl

/-- The frame of CONT (R188). -/
theorem mkFrame_cont (en : BitVec 4) (avg : Bool) (rate : Byte) (dur : BitVec 48) :
    mkFrame 0x06#8 ([en.setWidth 8, (BitVec.ofBool avg).setWidth 8, rateEnc avg rate] ++ bytesBE dur.toNat 6) =
      #v[0x06, 0#4 ++ en, if avg then 1 else 0, if avg then 1 else rate, dur.extractLsb' 40 8, dur.extractLsb' 32 8,
         dur.extractLsb' 24 8, dur.extractLsb' 16 8, dur.extractLsb' 8 8, dur.extractLsb' 0 8] := by
  have havg : (BitVec.ofBool avg).setWidth 8 = if avg then 1 else 0 := by cases avg <;> rfl
  rw [setWidth_mask, havg, bytesBE_six, mkFrame_eq]
  rfl

/-- An accepted command writes the registers of every session start, then does its opcode's own part (R196, R222). -/
theorem exec_command_started {i : Instr} {s : State} (hcommand : i.isCommand = true) (hlegal : operandsLegal s.params i)
    (hready : s.ready = true) :
    exec i s =
      .next (startOf i (sessionRegisters (opcodeOf i) (mkFrame (opcodeOf i) (framePayload i)) s)) := by
  rw [exec_command hcommand, badField_of_operandsLegal hlegal, commandPort_accept hready]
  cases i <;> rfl

/-- Settles O18: acceptance with the mask in the frame and in MASK. -/
theorem singleInReadyState : Obligations.SingleInReadyState := by
  intro en s hready
  rw [← mkFrame_single]
  exact exec_command_started (i := .single en) rfl trivial hready

/-- Settles O19: acceptance with the encoded rate in the frame and in EXPECTED. -/
theorem contInReadyState : Obligations.ContInReadyState := by
  intro en avg rate dur s hready r
  rw [← mkFrame_cont]
  exact exec_command_started (i := .cont en avg rate dur) rfl trivial hready

/-- StartOther's state and mode follow the response protocol (R238). -/
theorem startOther_eq (s : State) (resp : Resp) :
    s.startOther resp = { s with
      seqState := if resp = .collect then .measCmdSent else .cmdSent
      mode := if resp = .collect then .stream else .none } := by
  cases resp <;> rfl

/-- Settles O20: acceptance with StartOther for the protocol the parameters hold. -/
theorem sendavailStopallInReadyState : Obligations.SendavailStopallInReadyState := by
  intro s hready
  refine ⟨?sendavail, ?stopall⟩
  case sendavail =>
    exact (exec_command_started (i := .sendavail) rfl trivial hready).trans (congrArg _ (startOther_eq _ _))
  case stopall =>
    exact (exec_command_started (i := .stopall) rfl trivial hready).trans (congrArg _ (startOther_eq _ _))

end Sys2Proof.Claims
end

section
/-! PROOFS. Refusals: an illegal operand, a busy engine, an unknown opcode; the mask a host computes; and a TxAccept
before the tenth byte. -/

namespace Sys2Proof.Claims

open Sys2Proof.Machine

section refusals
variable {i : Instr} {s : State}

/-- Illegal operands make the operand check name a field that is out of range (R181, R183). -/
theorem exists_badField_of_not_operandsLegal {p : Params} (hillegal : ¬ operandsLegal p i) :
    ∃ field, offends p i field ∧ badField p i = some field := by
  cases i with
  | setmag cc tmrc =>
    by_cases htmrc : tmrc.toNat ≤ 13
    · have hcc : cc ∈ p.ccExcluded := not_not.1 fun hcc => hillegal ⟨htmrc, hcc⟩
      exact ⟨2, .inr ⟨rfl, htmrc, hcc⟩, magBadField_of_excluded htmrc hcc⟩
    · exact ⟨1, .inl ⟨rfl, not_le.1 htmrc⟩, magBadField_of_tmrc_gt (not_le.1 htmrc)⟩
  | setimu f =>
    have hbad : imuBadField f ≠ none := mt imuBadField_eq_none.1 hillegal
    obtain ⟨k, hk⟩ := Option.ne_none_iff_exists'.1 hbad
    have hrange : Config.imuFieldCount[k] ≤ f[k].toNat := (imuBadField_eq_some_iff.1 hk).1
    exact ⟨_, ⟨k, rfl, hrange⟩, by rw [badField, imuBadFieldId, hk]; rfl⟩
  | _ => exact absurd trivial hillegal

/-- A busy engine refuses every command (R180, R221). -/
theorem exec_command_busy (hcommand : i.isCommand = true) (hbusy : s.busy = true) :
    exec i s = .next (refusedWith .busy 0 s) := by
  rw [exec_command hcommand, commandPort_busy hbusy]
  rfl

/-- A busy engine refuses every request, whether its opcode is known or not (R180, R221, R278). -/
theorem onRequest_busy (r : Request) (hbusy : s.busy = true) : onRequest r s = .next (refusedWith .busy 0 s) := by
  cases hinstr : r.instr with
  | some i =>
    rw [onRequest, hinstr]
    exact exec_command_busy (instr_isCommand hinstr) hbusy
  | none =>
    rw [onRequest, hinstr]
    exact if_pos hbusy

end refusals

/-- Settles O22: acceptance takes the encoding as the frame, and the check answers a field out of range. -/
theorem refusedRequestChangesNothing : Obligations.RefusedRequestChangesNothing := by
  intro i s hcommand hready
  refine ⟨fun hlegal => ?accepted, fun hillegal => ?refused⟩
  case accepted =>
    obtain ⟨t, buf, hexec, hbuf, henc, -, -⟩ := acceptedFrameIsEncoding i s hcommand hlegal hready
    exact ⟨t, buf, hexec, hbuf, henc⟩
  case refused =>
    obtain ⟨field, hoffends, hbad⟩ := exists_badField_of_not_operandsLegal hillegal
    exact ⟨field, hoffends, (exec_command hcommand).trans (commandPort_refusedWith hready hbad)⟩

/-- Settles O23: taking the event leaves BUSY as it is. -/
theorem busyRefusesEveryRequest : Obligations.BusyRefusesEveryRequest := by
  intro r es s hbusy hin
  rw [step_cons hin]
  exact onRequest_busy (s := s.takeEvent es) r hbusy

/-- Settles O24: the command port's answer to an opcode with no instruction. -/
theorem unknownOpcodeRefused : Obligations.UnknownOpcodeRefused := by
  intro op es s hready hin
  have hbusy : (s.takeEvent es).busy = false := State.not_busy_of_ready hready
  rw [step_cons hin]
  exact if_neg (ne_true_of_eq_false hbusy)

/-- Clearing bit `j` of a mask. -/
theorem getElem_clearBit (m : BitVec 4) (i j : Fin 4) : (m &&& ~~~(1#4 <<< j.val))[i] = (m[i] && decide (i ≠ j)) := by
  have hbit : (1#4 <<< j.val)[i] = decide (i = j) := by revert i j; decide
  rw [Fin.getElem_fin] at hbit ⊢
  rw [BitVec.getElem_and, BitVec.getElem_not, hbit, decide_not, Fin.getElem_fin]

/-- Dropping magnetometers from any mask clears their bits, by induction on the list. -/
theorem getElem_foldl_clearBit (disabled : List (Fin 4)) (m : BitVec 4) (i : Fin 4) :
    (disabled.foldl (fun m j => m &&& ~~~(1#4 <<< j.val)) m)[i] = (m[i] && decide (i ∉ disabled)) := by
  induction disabled generalizing m with
  | nil => simp
  | cons j disabled ih =>
    rw [List.foldl_cons, ih, getElem_clearBit]
    simp [Bool.and_assoc]

/-- Settles O25: all bits are set before any is cleared. -/
theorem enableMaskDropsDisabled : Obligations.EnableMaskDropsDisabled := by
  intro disabled i
  have hdefault : Config.maskDefault[i] = true := by revert i; decide
  rw [enableMask, getElem_foldl_clearBit, hdefault, Bool.true_and]

/-- Settles O27: the rule of TxAccept before the tenth byte. -/
theorem txAcceptSendsOneByte : Obligations.TxAcceptSendsOneByte :=
  fun _ _ _ hidx hsend hbuf hin => step_txAccept_of_lt_nine hidx hsend hbuf hin

end Sys2Proof.Claims
end

section
/-! PROOFS. A whole SETMAG exchange: the request, the send, the echo read and the acknowledgment read. -/

namespace Sys2Proof.Claims

open Sys2Proof.Machine

/-- The echo phase has taken result `r` with match `m`, and the acknowledgment read is open (R224). -/
def echoTaken (r : Result) (m : Bool) (s : State) : State :=
  { s.recordEcho r with cfgMatch := m, sub := .ack, pst := .flag }

section phases
variable {s : State} {r : Result}

/-- The comparison with the bytes sent does not see what the echo phase records. -/
theorem echoOk_recordEcho (r r' : Result) (s : State) : (s.recordEcho r').echoOk r = s.echoOk r := by
  cases r' <;> rfl

/-- A result in the echo phase, by the answer of its comparison (R224). -/
theorem finishRead_echoPhase {m : Bool} (hseq : s.seqState = .configSent) (hsub : s.sub = .echo)
    (hok : s.echoOk r = .ok m) : finishRead r s = .next (echoTaken r m s) := by
  have hok' : (s.endRead.recordEcho r).echoOk r = .ok m := (echoOk_recordEcho r r s.endRead).trans hok
  rw [finishRead, deliver_echo (s := s.endRead) hseq hsub, echoPhase]
  simp only [hok']
  cases r <;> rfl

/-- For SETMAG an echo of the three bytes sent matches (R225). -/
theorem echoOk_of_sent {buf : Vector Byte 10} (hop : s.op = 1#8) (hbuf : s.cmdBuf = some buf) :
    s.echoOk (.echo 0x02#8 (sentSlice buf 3)) = .ok true := by
  rw [State.echoOk, if_pos hop, hbuf, Result.matchesSent, if_pos rfl]
  exact congrArg _ (beq_self_eq_true _)

/-- The acknowledgment phase of a result that is not Invalid (R226). -/
theorem ackPhase_endRead (hr : ∀ reason f, r ≠ .invalid reason f) : ackPhase r s.endRead = exchangeEnded r.kind s := by
  have hack : s.endRead.recordAck r = { s.endRead with ackKind := r.kind } := State.recordAck_of_not_invalid _ hr
  rw [ackPhase, hack]
  by_cases hmatch : s.cfgMatch = true
  · simp only [exchangeEnded, if_pos hmatch]
    refine (if_pos hmatch).trans ?_
    rw [endSession_eq_sessionEnded _ rfl]
    rfl
  · simp only [exchangeEnded, if_neg hmatch]
    refine (if_neg hmatch).trans ?_
    rw [endSession_eq_sessionEnded _ rfl]
    rfl

/-- A result in the acknowledgment phase that is not Invalid ends the exchange (R226). -/
theorem finishRead_ackPhase (hseq : s.seqState = .configSent) (hsub : s.sub = .ack)
    (hr : ∀ reason f, r ≠ .invalid reason f) : finishRead r s = .next (exchangeEnded r.kind s) :=
  (deliver_ack (s := s.endRead) hseq hsub r).trans (congrArg _ (ackPhase_endRead hr))

end phases

/-- The frame of SETMAG Custom (R181). -/
def setmagCustomFrame (cc : BitVec 16) (tmrc : Byte) : Vector Byte 10 :=
  #v[0x01, cc.extractLsb' 8 8, cc.extractLsb' 0 8, tmrc, 0, 0, 0, 0, 0, 0]

/-- The three bytes a faithful device echoes (R181, R225). -/
def setmagEcho (cc : BitVec 16) (tmrc : Byte) : Vector Byte 3 := #v[cc.extractLsb' 8 8, cc.extractLsb' 0 8, tmrc]

/-- A configuration command whose frame `buf` has left, with the echo read open and `es` still to come (R191, R223). -/
def configFrameSent (buf : Vector Byte 10) (es : List Event) (s : State) : State :=
  { s with
    sub := .echo, pst := .flag, txIdx := 10, log := s.log ++ buf.toList.map .txByte, inputs := es
    events := s.events + 10 }

/-- A SETMAG exchange whose faithful echo has been received and matched, with `rest` held by the transport and `es` still
to come (R224, R225). -/
def setmagEchoed (cc : BitVec 16) (tmrc : Byte) (rest : List Byte) (es : List Event) (s : State) : State :=
  echoTaken (.echo 0x02#8 (setmagEcho cc tmrc).toList) true (received 0x02#8 (setmagEcho cc tmrc).toList 4 rest es s)

/-- The same exchange once the Complete marker has been read as its acknowledgment (R226). -/
def setmagAcknowledged (cc : BitVec 16) (tmrc : Byte) (es : List Event) (s : State) : State :=
  exchangeEnded .complete (received 0x0A#8 [] 1 [] es (setmagEchoed cc tmrc [0x0A] (.rxByte :: es) s))

/-- The end of a whole SETMAG exchange that starts in the ready state `s`, with `es` still to come. -/
def setmagExchanged (cc : BitVec 16) (tmrc : Byte) (es : List Event) (s : State) : State :=
  setmagAcknowledged cc tmrc es
    (configFrameSent (setmagCustomFrame cc tmrc) (List.replicate 5 .rxByte ++ es)
      (configStarted 0x01#8 (setmagCustomFrame cc tmrc)
        (s.takeEvent (List.replicate 10 .txAccept ++ List.replicate 5 .rxByte ++ es))))

section exchange
variable {s : State} {cc : BitVec 16} {tmrc : Byte} {rest : List Byte} {es : List Event}

/-- The request of a legal SETMAG in a ready state starts the exchange (R181, R222). -/
theorem step_setmag (hready : s.ready = true) (htmrc : tmrc.toNat ≤ 13) (hcc : cc ∉ s.params.ccExcluded)
    (hin : s.inputs = .cmdRequest (.setmag (.custom cc tmrc)) :: es) :
    step s = .next (configStarted 0x01#8 (setmagCustomFrame cc tmrc) (s.takeEvent es)) :=
  (step_cmdRequest hin rfl).trans ((setmagInReadyState cc tmrc (s.takeEvent es) hready).1 htmrc hcc)

/-- A configuration command opens the echo read (R223). -/
theorem sendFinished_configSent (hseq : s.seqState = .configSent) :
    sendFinished s = { s with sub := .echo, pst := .flag } := by
  rw [sendFinished, hseq]

/-- The ten bytes of a configuration command leave and the echo read opens (R191, R223). -/
theorem steps_configFrameSent {buf : Vector Byte 10} (hseq : s.seqState = .configSent) (hsub : s.sub = .tx)
    (hidx : s.txIdx = 0) (hbuf : s.cmdBuf = some buf) (hin : s.inputs = List.replicate 10 .txAccept ++ es) :
    steps 10 s = .next (configFrameSent buf es s) := by
  have hsend : s.sending = true := by rw [State.sending, hseq, hsub]; rfl
  exact (wholeFrameIsSentInOrder s buf es hsend hidx hbuf hin).trans (congrArg _ (sendFinished_configSent hseq))

/-- A faithful echo is received in four events and matches (R224, R225). -/
theorem steps_setmagEchoed (hseq : s.seqState = .configSent) (hsub : s.sub = .echo)
    (hop : s.op = 1#8) (hbuf : s.cmdBuf = some (setmagCustomFrame cc tmrc)) (hpst : s.pst = .flag)
    (hrx : s.rxPending = 0x02#8 :: (setmagEcho cc tmrc).toList ++ rest)
    (hin : s.inputs = List.replicate 4 .rxByte ++ es) :
    steps 4 s = .next (setmagEchoed cc tmrc rest es s) := by
  have hexec := byteWiseReceptionExecutesFrame (.fMecho (setmagEcho cc tmrc)) s _ _ rest es rfl rfl rfl hpst hrx hin
  exact hexec.trans (finishRead_echoPhase hseq hsub (echoOk_of_sent hop hbuf))

/-- A Complete marker in the acknowledgment phase ends the exchange (R226). -/
theorem step_complete_ackPhase (hseq : s.seqState = .configSent) (hsub : s.sub = .ack)
    (hpst : s.pst = .flag) (hrx : s.rxPending = 0x0A#8 :: rest) (hin : s.inputs = .rxByte :: es) :
    step s = .next (exchangeEnded .complete (received 0x0A#8 [] 1 rest es s)) :=
  (step_rxByte_whole (i := .fCmpl) rfl hin hpst hrx).trans (finishRead_ackPhase hseq hsub (by simp))

/-- The two reads of an exchange with a faithful device, from the state its frame has been sent in. -/
theorem steps_setmagAcknowledged (hseq : s.seqState = .configSent) (hsub : s.sub = .echo) (hop : s.op = 1#8)
    (hbuf : s.cmdBuf = some (setmagCustomFrame cc tmrc)) (hpst : s.pst = .flag)
    (hrx : s.rxPending = 0x02#8 :: (setmagEcho cc tmrc).toList ++ [0x0A])
    (hin : s.inputs = List.replicate 5 .rxByte ++ es) :
    steps 5 s = .next (setmagAcknowledged cc tmrc es s) := by
  have hecho : steps 4 s = .next (setmagEchoed cc tmrc [0x0A] (.rxByte :: es) s) :=
    steps_setmagEchoed hseq hsub hop hbuf hpst hrx hin
  rw [steps_add 4 1 hecho, steps_one]
  exact step_complete_ackPhase (s := setmagEchoed cc tmrc [0x0A] (.rxByte :: es) s) hseq rfl rfl rfl rfl

/-- The whole exchange: the request, the ten bytes of the frame, and the two reads. -/
theorem steps_setmagExchanged (hready : s.ready = true) (htmrc : tmrc.toNat ≤ 13) (hcc : cc ∉ s.params.ccExcluded)
    (hrx : s.rxPending = 0x02#8 :: (setmagEcho cc tmrc).toList ++ [0x0A])
    (hin : s.inputs = .cmdRequest (.setmag (.custom cc tmrc)) ::
      (List.replicate 10 .txAccept ++ List.replicate 5 .rxByte ++ es)) :
    steps 16 s = .next (setmagExchanged cc tmrc es s) := by
  rw [steps_succ (step_setmag hready htmrc hcc hin)]
  refine (steps_add 10 5 (steps_configFrameSent rfl rfl rfl rfl (List.append_assoc _ _ _))).trans ?_
  exact steps_setmagAcknowledged (s := configFrameSent _ _ (configStarted _ _ _)) rfl rfl rfl rfl rfl hrx rfl

end exchange

/-- Settles O48: the request, the send, the echo read and the acknowledgment read in a row; the log's three parts are
what the first, the second and the last of them emit. -/
theorem setmagExchangeConfigures : Obligations.SetmagExchangeConfigures := by
  intro s cc tmrc es hready htmrc hcc hrx hin
  have hrun := steps_setmagExchanged hready htmrc hcc hrx hin
  have hlog (answer sent ended : List Output) :
      s.log ++ answer ++ sent ++ ended = s.log ++ (answer ++ (sent ++ ended)) := by simp
  exact ⟨_, hrun, rfl, rfl, rfl, rfl, rfl, rfl, rfl, rfl, rfl, rfl, rfl, _, hlog _ _ _, rfl⟩

end Sys2Proof.Claims
end

section
/-! PROOFS. Everything the delivery of a result can do, outcome by outcome, and the transition table of R220. -/

namespace Sys2Proof.Claims

open Sys2Proof.Machine

/-- The state after a record is emitted and counted (R230). -/
def recordEmitted (rec : Record) (s : State) : State :=
  { s.emit (.record s.recCount rec) with recCount := s.recCount + 1 }

/-- The state after an Invalid result is counted and recorded, its threshold apart (R231). -/
def invalidNoted (reason : InvalidReason) (f : Byte) (s : State) : State :=
  (State.recordInvalid { s with invCount := s.invCount + 1 } reason f).raiseError (InvalidReason.error reason)

/-- The state after the acknowledgment's kind is recorded, an Invalid result in LAST_INV as well (R226, R274). -/
def ackNoted (k : AckKind) (inv : LastInvalid) (f : Byte) (s : State) : State :=
  { s with ackKind := k, lastInv := inv, lastInvFlag := f, sub := .tx }

/-- What the delivery of a result can do: the rows of R220 under "parser Result", with the state each leaves. -/
inductive Delivery (s t : State) : Prop
  /-- A record ends a SINGLE session (R230). -/
  | recordEnds (rec : Record) (hs : s.seqState = .collecting) (hm : s.mode = .single)
      (ht : t = (recordEmitted rec s).endSession .complete)
  /-- A record leaves any other session reading (R230). -/
  | recordKept (rec : Record) (hs : s.seqState = .collecting) (ht : t = (recordEmitted rec s).startRead)
  /-- An invalid frame past the threshold aborts (R231). -/
  | invalidAborts (reason : InvalidReason) (f : Byte) (hs : s.seqState = .collecting) (hx : 9 < s.invCount + 1)
      (ht : t = ((invalidNoted reason f s).raiseError .tooManyInvalidFrames).endSession .aborted)
  /-- An invalid frame within the threshold leaves the session reading (R231). -/
  | invalidKept (reason : InvalidReason) (f : Byte) (hs : s.seqState = .collecting)
      (ht : t = (invalidNoted reason f s).startRead)
  /-- A Complete marker ends the session (R233). -/
  | completeEnds (hs : s.seqState = .collecting) (ht : t = s.endSession .complete)
  /-- A Debug frame is emitted and the loop reads on (R236). -/
  | debugKept (d : List Byte) (hs : s.seqState = .collecting) (ht : t = (s.emit (.debug d)).startRead)
  /-- An echo in Collecting is discarded (R236). -/
  | echoDropped (hs : s.seqState = .collecting) (ht : t = s.startRead)
  /-- The echo phase takes any result (R224). -/
  | echoTaken (r : Result) (m : Bool) (hs : s.seqState = .configSent) (hp : s.sub = .echo) (ht : t = echoTaken r m s)
  /-- The acknowledgment phase after a match (R226). -/
  | ackMatched (k : AckKind) (inv : LastInvalid) (f : Byte) (hs : s.seqState = .configSent) (hp : s.sub = .ack)
      (hm : s.cfgMatch = true) (ht : t = (ackNoted k inv f s).endSession .configured)
  /-- The acknowledgment phase after a mismatch (R226). -/
  | ackFailed (k : AckKind) (inv : LastInvalid) (f : Byte) (hs : s.seqState = .configSent) (hp : s.sub = .ack)
      (hm : s.cfgMatch = false)
      (ht : t = ((ackNoted k inv f s).raiseError .configMismatch).endSession .configFailed)

theorem delivery_of_collecting {s : State} (hs : s.seqState = .collecting) (r : Result) : Delivery s (collect r s) := by
  rcases collect_cases r s with ⟨rec, -, ⟨hm, ht⟩ | ⟨-, ht⟩⟩ | ⟨reason, f, -, ⟨hx, ht⟩ | ⟨-, ht⟩⟩ | ⟨-, ht⟩ |
    ⟨d, -, ht⟩ | ⟨f, e, -, ht⟩
  · exact .recordEnds rec hs hm ht
  · exact .recordKept rec hs ht
  · exact .invalidAborts reason f hs hx ht
  · exact .invalidKept reason f hs ht
  · exact .completeEnds hs ht
  · exact .debugKept d hs ht
  · exact .echoDropped hs ht

theorem delivery_of_ackPhase {s : State} (hs : s.seqState = .configSent) (hp : s.sub = .ack) (r : Result) :
    Delivery s (ackPhase r s) := by
  obtain ⟨inv, f, -, ⟨hm, ht⟩ | ⟨hm, ht⟩⟩ := ackPhase_cases r s
  · exact .ackMatched r.kind inv f hs hp hm ht
  · exact .ackFailed r.kind inv f hs hp hm ht

/-- A delivery that goes on has one of the ten outcomes. -/
theorem delivery_of_deliver {r : Result} {s t : State} (h : deliver r s = .next t) : Delivery s t := by
  rcases deliver_cases h with ⟨hs, rfl⟩ | ⟨hs, hp, m, -, ht⟩ | ⟨hs, hp, rfl⟩
  · exact delivery_of_collecting hs r
  · exact .echoTaken r m hs hp ht
  · exact delivery_of_ackPhase hs hp r

section recordEcho
variable (r : Result) (s : State)

@[simp] theorem recordEcho_seqState : (s.recordEcho r).seqState = s.seqState := by cases r <;> rfl
@[simp] theorem recordEcho_lastError : (s.recordEcho r).lastError = s.lastError := by cases r <;> rfl

end recordEcho

section endSession
variable (s : State) (st : SeqState)

@[simp] theorem endSession_seqState : (s.endSession st).seqState = st := rfl
@[simp] theorem endSession_sub : (s.endSession st).sub = s.sub := rfl
@[simp] theorem endSession_recCount : (s.endSession st).recCount = s.recCount := rfl
@[simp] theorem endSession_invCount : (s.endSession st).invCount = s.invCount := rfl

end endSession

/-! ### The rows of the transition table, by event -/

/-- The rows of an accepted request (R220, R222, R238). -/
def requestRow (s t : State) : Prop :=
  ((t.op = 1#8 ∨ t.op = 2#8 ∨ t.op = 3#8 ∨ t.op = 4#8) ∧ t.seqState = .configSent ∧ t.sub = .tx) ∨
  ((t.op = 5#8 ∨ t.op = 6#8) ∧ t.seqState = .measCmdSent ∧ t.sub = s.sub) ∨
  (t.op = 7#8 ∧ t.sub = s.sub ∧ t.seqState = if s.params.respSendAvail = .collect then .measCmdSent else .cmdSent) ∨
  (t.op = 8#8 ∧ t.sub = s.sub ∧ t.seqState = if s.params.respStopAll = .collect then .measCmdSent else .cmdSent)

/-- The rows of the tenth TxAccept (R220, R223). -/
def sentRow (s t : State) : Prop :=
  (s.seqState = .configSent ∧ s.sub = .tx ∧ t.seqState = .configSent ∧ t.sub = .echo) ∨
  (s.seqState = .measCmdSent ∧ t.seqState = .collecting ∧ t.sub = s.sub) ∨
  (s.seqState = .cmdSent ∧ t.seqState = .idle ∧ t.sub = s.sub)

/-- The rows of a parser result that leave SEQ_STATE or SUB (R220, R224, R226, R230, R231, R233). -/
def resultRow (s t : State) : Prop :=
  (s.seqState = .configSent ∧ s.sub = .echo ∧ t.seqState = .configSent ∧ t.sub = .ack) ∨
  (s.seqState = .configSent ∧ s.sub = .ack ∧ s.cfgMatch = true ∧ t.seqState = .configured ∧ t.sub = .tx) ∨
  (s.seqState = .configSent ∧ s.sub = .ack ∧ s.cfgMatch = false ∧ t.seqState = .configFailed ∧ t.sub = .tx) ∨
  (s.seqState = .collecting ∧ s.mode = .single ∧ t.recCount = s.recCount + 1 ∧ t.seqState = .complete ∧ t.sub = s.sub) ∨
  (s.seqState = .collecting ∧ t.recCount = s.recCount ∧ t.invCount = s.invCount ∧ t.seqState = .complete ∧
    t.sub = s.sub) ∨
  (s.seqState = .collecting ∧ t.invCount = s.invCount + 1 ∧ 9 < s.invCount + 1 ∧ t.seqState = .aborted ∧ t.sub = s.sub)

/-- SEQ_STATE and SUB are unchanged. -/
def stays (s t : State) : Prop := t.seqState = s.seqState ∧ t.sub = s.sub

/-- The table is its rows, each group under its event. -/
theorem edge_iff {s t : State} : edge s t ↔
    stays s t ∨ (s.ready = true ∧ (∃ r es, s.inputs = .cmdRequest r :: es) ∧ requestRow s t) ∨
      (tenthTxAccept s = true ∧ sentRow s t) ∨ (readEnds s = true ∧ resultRow s t) ∨
      (nextIs s .reset = true ∧ t.seqState = .idle ∧ t.sub = .tx) := Iff.rfl

/-- Where StartOther goes for a response protocol (R238). -/
theorem startState_eq (resp : Resp) : Resp.startState resp = if resp = .collect then .measCmdSent else .cmdSent := by
  cases resp <;> rfl

/-- Acceptance takes its opcode's row. -/
theorem requestRow_of_accepted {i : Instr} (frame : Vector Byte 10) (s : State) (hcommand : i.isCommand = true) :
    requestRow s ((startOf i (s.accept (opcodeOf i) frame)).answer .none 0) := by
  cases i with
  | setmag | setmagDefault => exact .inl ⟨.inl rfl, rfl, rfl⟩
  | setimu | setimuDefault => exact .inl ⟨.inr (.inl rfl), rfl, rfl⟩
  | getmag => exact .inl ⟨.inr (.inr (.inl rfl)), rfl, rfl⟩
  | getimu => exact .inl ⟨.inr (.inr (.inr rfl)), rfl, rfl⟩
  | single => exact .inr (.inl ⟨.inl rfl, rfl, rfl⟩)
  | cont => exact .inr (.inl ⟨.inr rfl, rfl, rfl⟩)
  | sendavail => exact .inr (.inr (.inl ⟨rfl, rfl, startState_eq _⟩))
  | stopall => exact .inr (.inr (.inr ⟨rfl, rfl, startState_eq _⟩))
  | fCmpl | fDebug | fMecho | fIecho | fMag | fAll | fMagt | fMagi | fUnrec => cases hcommand

/-- The end of a send takes its state's row. -/
theorem sentRow_of_sendDone {s : State} (hsend : s.sending = true) : sentRow s s.sendDone := by
  rcases sendDone_cases hsend with ⟨hseq, hsub, ht⟩ | ⟨hseq, ht⟩ | ⟨hseq, ht⟩
  · exact .inl ⟨hseq, hsub, by rw [ht]; exact hseq, by rw [ht]⟩
  · exact .inr (.inl ⟨hseq, by rw [ht], by rw [ht]⟩)
  · exact .inr (.inr ⟨hseq, by rw [ht], by rw [ht]⟩)

/-- A delivery stays or takes a row of a parser result. -/
theorem stays_or_resultRow {s t : State} (h : Delivery s t) : stays s t ∨ resultRow s t := by
  cases h with
  | recordEnds rec hs hm ht =>
    subst ht
    exact .inr (.inr (.inr (.inr (.inl
      ⟨hs, hm, endSession_recCount _ _, endSession_seqState _ _, endSession_sub _ _⟩))))
  | recordKept rec hs ht => subst ht; exact .inl ⟨rfl, rfl⟩
  | invalidAborts reason f hs hx ht =>
    subst ht
    exact .inr (.inr (.inr (.inr (.inr (.inr
      ⟨hs, endSession_invCount _ _, hx, endSession_seqState _ _, endSession_sub _ _⟩)))))
  | invalidKept reason f hs ht => subst ht; exact .inl ⟨rfl, rfl⟩
  | completeEnds hs ht =>
    subst ht
    exact .inr (.inr (.inr (.inr (.inr (.inl
      ⟨hs, endSession_recCount _ _, endSession_invCount _ _, endSession_seqState _ _, endSession_sub _ _⟩)))))
  | debugKept d hs ht => subst ht; exact .inl ⟨rfl, rfl⟩
  | echoDropped hs ht => subst ht; exact .inl ⟨rfl, rfl⟩
  | echoTaken r m hs hp ht => subst ht; exact .inr (.inl ⟨hs, hp, (recordEcho_seqState r s).trans hs, rfl⟩)
  | ackMatched k inv f hs hp hm ht => subst ht; exact .inr (.inr (.inl ⟨hs, hp, hm, rfl, rfl⟩))
  | ackFailed k inv f hs hp hm ht => subst ht; exact .inr (.inr (.inr (.inl ⟨hs, hp, hm, rfl, rfl⟩)))

/-! ### What a step can do to the sequencer -/

/-- `u` differs from `s` at most in the parser's registers, the transport's bytes and the events. -/
def sequencerKept (s u : State) : Prop :=
  u = { s with
    pst := u.pst, flag := u.flag, idx := u.idx, plen := u.plen, pbuf := u.pbuf, sum := u.sum, rxPending := u.rxPending
    inputs := u.inputs, events := u.events }

/-- What a step can do to the sequencer, with the condition of each group of rows of R220. -/
inductive SequencerStep (s t : State) : Prop
  /-- Nothing: SEQ_STATE, SUB and LAST_ERROR are unchanged. -/
  | kept (hstays : stays s t) (herror : t.lastError = s.lastError)
  /-- A session starts. -/
  | accepted (i : Instr) (frame : Vector Byte 10) (es : List Event) (hcommand : i.isCommand = true)
      (hready : s.ready = true) (hin : ∃ r es, s.inputs = .cmdRequest r :: es)
      (ht : t = (startOf i ((s.takeEvent es).accept (opcodeOf i) frame)).answer .none 0)
  /-- The tenth byte of a command frame has left. -/
  | sent (b : Byte) (es : List Event) (htenth : tenthTxAccept s = true) (hsend : s.sending = true)
      (ht : t = ((s.takeEvent es).sendByte b).sendDone)
  /-- A result is delivered in the state `u`. -/
  | delivered (u : State) (hread : readEnds s = true) (hu : sequencerKept s u) (hd : Delivery u t)
  /-- Reset. -/
  | reset (es : List Event) (hreset : nextIs s .reset = true) (ht : t = (s.takeEvent es).resetEngine)

theorem nextIs_of_cons {s : State} {e : Event} {es : List Event} (hin : s.inputs = e :: es) : nextIs s e = true := by
  simp [nextIs, hin]

theorem tenthTxAccept_of_cons {s : State} {es : List Event} (hin : s.inputs = .txAccept :: es) (hidx : s.txIdx = 9) :
    tenthTxAccept s = true := by
  simp [tenthTxAccept, nextIs_of_cons hin, hidx]

/-- Everything a step can do to the sequencer. -/
theorem sequencerStep_of_step {s t : State} (hstep : step s = .next t) : SequencerStep s t := by
  rcases step_cases hstep with ⟨-, rfl⟩ | ⟨e, es, hin, hmove⟩
  · exact .kept ⟨rfl, rfl⟩ rfl
  cases hmove with
  | refused r c f he hc ht => subst ht; exact .kept ⟨rfl, rfl⟩ rfl
  | accepted r i frame he hi hr hf ht =>
    subst he
    exact .accepted i frame es (instr_isCommand hi) hr ⟨r, es, hin⟩ ht
  | dropped h1 h2 h3 ht => subst ht; exact .kept ⟨rfl, rfl⟩ rfl
  | sent buf he hs hb hx ht => subst ht; exact .kept ⟨rfl, rfl⟩ rfl
  | sentLast buf he hs hb hx ht =>
    subst he
    exact .sent buf[9] es (tenthTxAccept_of_cons hin hx) hs ht
  | arrived b he ht => subst ht; exact .kept ⟨rfl, rfl⟩ rfl
  | flag b rest he hp hr hl ht => subst ht; exact .kept ⟨rfl, rfl⟩ rfl
  | payload b rest f hx he hp hr hf hl ht => subst ht; exact .kept ⟨rfl, rfl⟩ rfl
  | delivered r u hw hu he hp hx hl ht =>
    have hopen : s.rxReady = true := hw
    have hread : readEnds s = true := by
      rcases he with ⟨rfl, -⟩ | ⟨rfl, -⟩ <;> simp [readEnds, nextIs_of_cons hin, hopen]
    refine .delivered u hread ?_ (delivery_of_deliver ht)
    rw [sequencerKept, hu]
    rfl
  | reset he ht =>
    subst he
    exact .reset es (nextIs_of_cons hin) ht

/-- Settles O55: a step that does something to the sequencer takes a row of its event's group. -/
theorem onlyTabulatedTransitions : Obligations.OnlyTabulatedTransitions := by
  intro s t hstep
  rw [edge_iff]
  cases sequencerStep_of_step hstep with
  | kept hstays herror => exact .inl hstays
  | accepted i frame es hcommand hready hin ht =>
    subst ht
    exact .inr (.inl ⟨hready, hin, requestRow_of_accepted frame (s.takeEvent es) hcommand⟩)
  | sent b es htenth hsend ht =>
    subst ht
    exact .inr (.inr (.inl ⟨htenth, sentRow_of_sendDone (s := (s.takeEvent es).sendByte b) hsend⟩))
  | delivered u hread hu hd =>
    have hrow := stays_or_resultRow hd
    rw [hu] at hrow
    exact hrow.imp id fun hrow => .inr (.inr (.inl ⟨hread, hrow⟩))
  | reset es hreset ht => subst ht; exact .inr (.inr (.inr (.inr ⟨hreset, rfl, rfl⟩)))

/-! ### The ways out of BUSY -/

/-- The step ends a session with its report (R237). -/
def reportsEnd (s t : State) : Prop :=
  ∃ outs rep, t.log = s.log ++ outs ++ [.sessionEnd rep] ∧ rep.state = t.seqState

/-- End reports the state it ends in, after what has been logged before it (R237). -/
theorem reportsEnd_endSession {s v : State} {outs : List Output} (st : SeqState) (hlog : v.log = s.log ++ outs) :
    reportsEnd s (v.endSession st) :=
  ⟨outs, _, congrArg (· ++ _) hlog, rfl⟩

theorem busy_congr {s t : State} (hseq : t.seqState = s.seqState) : t.busy = s.busy := by
  simp only [State.busy, hseq]

theorem busy_of_collecting {s : State} (hseq : s.seqState = .collecting) : s.busy = true := by rw [State.busy, hseq]

theorem busy_of_configSent {s : State} (hseq : s.seqState = .configSent) : s.busy = true := by rw [State.busy, hseq]

/-- A delivery keeps the engine busy or ends the session with its report. -/
theorem busy_or_reportsEnd {s t : State} (h : Delivery s t) : t.busy = true ∨ reportsEnd s t := by
  have hnil : s.log = s.log ++ [] := (List.append_nil _).symm
  cases h with
  | recordEnds rec hs hm ht => subst ht; exact .inr (reportsEnd_endSession _ rfl)
  | recordKept rec hs ht => subst ht; exact .inl (busy_of_collecting hs)
  | invalidAborts reason f hs hx ht => subst ht; exact .inr (reportsEnd_endSession _ hnil)
  | invalidKept reason f hs ht => subst ht; exact .inl (busy_of_collecting hs)
  | completeEnds hs ht => subst ht; exact .inr (reportsEnd_endSession _ hnil)
  | debugKept d hs ht => subst ht; exact .inl (busy_of_collecting hs)
  | echoDropped hs ht => subst ht; exact .inl (busy_of_collecting hs)
  | echoTaken r m hs hp ht => subst ht; exact .inl (busy_of_configSent ((recordEcho_seqState r s).trans hs))
  | ackMatched k inv f hs hp hm ht => subst ht; exact .inr (reportsEnd_endSession _ hnil)
  | ackFailed k inv f hs hp hm ht => subst ht; exact .inr (reportsEnd_endSession _ hnil)

/-- An event that ends a read is a delivery or a timeout. -/
theorem nextIs_of_readEnds {s : State} (h : readEnds s = true) :
    nextIs s .rxByte = true ∨ nextIs s .rxTimeout = true := by
  simp only [readEnds, Bool.and_eq_true, Bool.or_eq_true] at h
  exact h.1

theorem nextIs_of_tenthTxAccept {s : State} (h : tenthTxAccept s = true) : nextIs s .txAccept = true := by
  simp only [tenthTxAccept, Bool.and_eq_true] at h
  exact h.1

/-- An accepted command makes the engine busy (R222). -/
theorem busy_of_accepted {i : Instr} (frame : Vector Byte 10) (s : State) (hcommand : i.isCommand = true) :
    ((startOf i (s.accept (opcodeOf i) frame)).answer .none 0).busy = true := by
  obtain ⟨-, -, hbusy⟩ := startOf_sends (s := s.accept (opcodeOf i) frame) hcommand
  exact hbusy

/-- Settles O57: of the things a step can do to the sequencer, acceptance and the first two ends of a send leave it
busy, and a delivery reports when it does not. -/
theorem busyLeftOnlyByEndOrReset : Obligations.BusyLeftOnlyByEndOrReset := by
  intro s t hbusy hidle hstep
  have hnot : ¬ t.busy = true := ne_true_of_eq_false hidle
  cases sequencerStep_of_step hstep with
  | kept hstays herror =>
    obtain ⟨hseq, -⟩ := hstays
    exact absurd ((busy_congr hseq).trans hbusy) hnot
  | accepted i frame es hcommand hready hin ht =>
    subst ht
    exact absurd (busy_of_accepted frame (s.takeEvent es) hcommand) hnot
  | sent b es htenth hsend ht =>
    have hrow := sentRow_of_sendDone (s := (s.takeEvent es).sendByte b) hsend
    rw [← ht] at hrow
    rcases hrow with ⟨-, -, hseq, -⟩ | ⟨-, hseq, -⟩ | ⟨hfrom, hseq, -⟩
    · exact absurd (busy_of_configSent hseq) hnot
    · exact absurd (busy_of_collecting hseq) hnot
    · exact .inr (.inl ⟨hfrom, hseq, nextIs_of_tenthTxAccept htenth⟩)
  | delivered u hread hu hd =>
    have hends := (busy_or_reportsEnd hd).resolve_left hnot
    rw [hu] at hends
    exact .inr (.inr ⟨nextIs_of_readEnds hread, hends⟩)
  | reset es hreset ht => exact .inl hreset

/-! ### The writers of LAST_ERROR -/

/-- The error writes of a parser result (R226, R231, R279). -/
def errorRow (s t : State) : Prop :=
  (s.seqState = .configSent ∧ t.seqState = .configFailed ∧ t.lastError = .configMismatch) ∨
  (s.seqState = .collecting ∧ t.invCount = s.invCount + 1 ∧
    (t.lastError = .invalidFrame ∨ t.lastError = .unrecognizedPacketFlag ∨
      (t.lastError = .tooManyInvalidFrames ∧ t.seqState = .aborted)))

/-- A delivery keeps LAST_ERROR or writes it as its rule says. -/
theorem lastError_eq_or_errorRow {s t : State} (h : Delivery s t) : t.lastError = s.lastError ∨ errorRow s t := by
  cases h with
  | recordEnds rec hs hm ht => subst ht; exact .inl rfl
  | recordKept rec hs ht => subst ht; exact .inl rfl
  | invalidAborts reason f hs hx ht => subst ht; exact .inr (.inr ⟨hs, rfl, .inr (.inr ⟨rfl, rfl⟩)⟩)
  | invalidKept reason f hs ht =>
    subst ht
    refine .inr (.inr ⟨hs, rfl, ?_⟩)
    cases reason with
    | unrecognized => exact .inr (.inl rfl)
    | absent | short | checksum => exact .inl rfl
  | completeEnds hs ht => subst ht; exact .inl rfl
  | debugKept d hs ht => subst ht; exact .inl rfl
  | echoDropped hs ht => subst ht; exact .inl rfl
  | echoTaken r m hs hp ht => subst ht; exact .inl (recordEcho_lastError r s)
  | ackMatched k inv f hs hp hm ht => subst ht; exact .inl rfl
  | ackFailed k inv f hs hp hm ht => subst ht; exact .inr (.inl ⟨hs, rfl, rfl⟩)

/-- Acceptance clears LAST_ERROR (R222). -/
theorem lastError_of_accepted (i : Instr) (frame : Vector Byte 10) (s : State) :
    ((startOf i (s.accept (opcodeOf i) frame)).answer .none 0).lastError = .none := by
  cases i <;> rfl

theorem sendDone_lastError (s : State) : s.sendDone.lastError = s.lastError := by
  unfold State.sendDone
  split <;> rfl

/-- Settles O59: acceptance and Reset clear LAST_ERROR, the end of a send keeps it, and a delivery writes it by its
row. -/
theorem lastErrorWriters : Obligations.LastErrorWriters := by
  intro s t hstep hne
  cases sequencerStep_of_step hstep with
  | kept hstays herror => exact absurd herror hne
  | accepted i frame es hcommand hready hin ht =>
    subst ht
    exact .inr (.inl ⟨hready, busy_of_accepted frame (s.takeEvent es) hcommand, lastError_of_accepted i frame _⟩)
  | sent b es htenth hsend ht =>
    subst ht
    exact absurd (sendDone_lastError _) hne
  | delivered u hread hu hd =>
    have hwrites := lastError_eq_or_errorRow hd
    rw [hu] at hwrites
    exact .inr (.inr (hwrites.resolve_left hne))
  | reset es hreset ht => subst ht; exact .inl ⟨hreset, rfl⟩

end Sys2Proof.Claims
end

section
/-! PROOFS. The end of a send, the frames in Collecting and in the echo phase, and where a frame completes. -/

namespace Sys2Proof.Claims

open Sys2Proof.Machine

/-! ### The tenth byte of a command frame -/

section sendDone
variable {s : State} {es : List Event}

/-- While a frame is being sent the engine is not ready for a request (R191, R43). -/
theorem ready_of_sending (hsend : s.sending = true) : s.ready = false := by
  rcases sendDone_cases hsend with ⟨hseq, -⟩ | ⟨hseq, -⟩ | ⟨hseq, -⟩
  all_goals rw [State.ready, State.busy, hseq]; rfl

/-- While a frame is being sent no read is outstanding (R241). -/
theorem readOutstanding_of_sending (hsend : s.sending = true) : s.readOutstanding = false := by
  rcases sendDone_cases hsend with ⟨hseq, hsub, -⟩ | ⟨hseq, -⟩ | ⟨hseq, -⟩
  · rw [State.readOutstanding, hseq, hsub]; rfl
  all_goals rw [State.readOutstanding, hseq]

/-- Under the invariant no read window is open while a frame is being sent. -/
theorem rxReady_of_sending (hinv : s.inv = true) (hsend : s.sending = true) : s.rxReady = false := by
  obtain ⟨hparser, -⟩ := State.inv_iff.1 hinv
  obtain ⟨-, hwindow, -, -⟩ := State.parserOk_iff.1 hparser
  rw [hwindow, readOutstanding_of_sending hsend]

/-- An open window is ready for a byte (R160). -/
theorem rxReady_of_flag (hpst : s.pst = .flag) : s.rxReady = true := by rw [State.rxReady, hpst]

theorem rxReady_of_pay (hpst : s.pst = .pay) : s.rxReady = true := by rw [State.rxReady, hpst]

/-- While a frame is being sent with no window open, only the tenth TxAccept can open one. -/
theorem rxReady_step_of_sending {u : State} (hclosed : s.rxReady = false) (hsend : s.sending = true)
    (htenth : tenthTxAccept s = false) (hstep : step s = .next u) : u.rxReady = false := by
  have hshut : ¬ s.rxReady = true := ne_true_of_eq_false hclosed
  rcases step_cases hstep with ⟨-, rfl⟩ | ⟨e, es, hin, hmove⟩
  · exact hclosed
  cases hmove with
  | refused r c f he hc ht => subst ht; exact hclosed
  | accepted r i frame he hi hr hf ht =>
    exact absurd (hr : s.ready = true) (ne_true_of_eq_false (ready_of_sending hsend))
  | dropped h1 h2 h3 ht => subst ht; exact hclosed
  | sent buf he hs hb hx ht => subst ht; exact hclosed
  | sentLast buf he hs hb hx ht =>
    subst he
    exact absurd (tenthTxAccept_of_cons hin hx) (ne_true_of_eq_false htenth)
  | arrived b he ht => subst ht; exact hclosed
  | flag b rest he hp hr hl ht => exact absurd (rxReady_of_flag (s := s) hp) hshut
  | payload b rest f hx he hp hr hf hl ht => exact absurd (rxReady_of_pay (s := s) hp) hshut
  | delivered r u hw hu he hp hx hl ht => exact absurd (hw : s.rxReady = true) hshut
  | reset he ht => subst ht; rfl

/-- The last byte of the frame has left (R191). -/
theorem sendByte_of_eq_nine {b : Byte} (hidx : s.txIdx = 9) :
    (s.takeEvent es).sendByte b =
      { s with txIdx := 10, log := s.log ++ [.txByte b], inputs := es, events := s.events + 1 } := by
  simp [State.sendByte, State.emit, State.takeEvent, hidx]

/-- A measurement command goes to Collecting with its first read open (R223). -/
theorem sendFinished_measCmdSent (hseq : s.seqState = .measCmdSent) :
    sendFinished s = { s with seqState := .collecting, pst := .flag } := by
  rw [sendFinished, hseq]

/-- A command without response goes to IDLE (R223). -/
theorem sendFinished_cmdSent (hseq : s.seqState = .cmdSent) : sendFinished s = { s with seqState := .idle } := by
  rw [sendFinished, hseq]

/-- The tenth TxAccept is SendDone in the state whose frame has left (R191, R223). -/
theorem step_tenthTxAccept {buf : Vector Byte 10} (hidx : s.txIdx = 9) (hsend : s.sending = true)
    (hbuf : s.cmdBuf = some buf) (hin : s.inputs = .txAccept :: es) :
    step s = .next (sendFinished
      { s with txIdx := 10, log := s.log ++ [.txByte buf[9]], inputs := es, events := s.events + 1 }) := by
  rw [step_txAccept_of_eq_nine hidx hsend hbuf hin, sendByte_of_eq_nine hidx]

end sendDone

/-- Settles O28: SendDone by acquisition state, the rule of TxAccept before the tenth byte, and the closed window of the
invariant, which only the tenth byte opens. -/
theorem sendDoneByState : Obligations.SendDoneByState := by
  refine ⟨fun s buf es hbuf hin => ⟨fun hidx hseq hsub => ?config, fun hidx hseq => ?measurement,
    fun hidx hseq => ?noResponse, fun hidx hsend => ?earlier⟩, fun s u hinv hsend htenth hstep => ?closed⟩
  case config =>
    have hsend : s.sending = true := by rw [State.sending, hseq, hsub]; rfl
    rw [step_tenthTxAccept hidx hsend hbuf hin]
    exact congrArg _ (sendFinished_configSent hseq)
  case measurement =>
    have hsend : s.sending = true := by rw [State.sending, hseq]
    rw [step_tenthTxAccept hidx hsend hbuf hin]
    exact congrArg _ (sendFinished_measCmdSent hseq)
  case noResponse =>
    have hsend : s.sending = true := by rw [State.sending, hseq]
    rw [step_tenthTxAccept hidx hsend hbuf hin]
    exact congrArg _ (sendFinished_cmdSent hseq)
  case earlier => exact ⟨_, txAcceptSendsOneByte s buf es hidx hsend hbuf hin, rfl, rfl, rfl, rfl⟩
  case closed => exact rxReady_step_of_sending (rxReady_of_sending hinv hsend) hsend htenth hstep

/-! ### Complete and echo frames in Collecting -/

/-- Settles O38: the loop ends the session, with no read open. -/
theorem completeEndsCollecting : Obligations.CompleteEndsCollecting := by
  intro s hcol
  have hend : collect .complete s.endRead = sessionEnded s.endRead .complete s.lastError :=
    endSession_eq_sessionEnded .complete rfl
  exact (finishRead_collecting hcol .complete).trans (congrArg _ hend)

/-- An echo in Collecting only opens the next read (R236). -/
theorem finishRead_echo_of_collecting {s : State} (hcol : s.seqState = .collecting) (f : Byte) (e : List Byte) :
    finishRead (.echo f e) s = .next { s with pst := .flag } :=
  finishRead_collecting hcol (.echo f e)

/-- Settles O41: both frames hand the loop an echo. -/
theorem echoFramesAreDiscardedInCollecting : Obligations.EchoFramesAreDiscardedInCollecting :=
  fun _ hcol => ⟨fun p => finishRead_echo_of_collecting hcol 0x02#8 p.toList,
    fun p => finishRead_echo_of_collecting hcol 0x03#8 p.toList⟩

/-! ### Echo frames in the echo phase -/

/-- An echo's bytes come first and leave the bytes past its length as they are (R224). -/
theorem getElem_writeEcho {n : Nat} (buf : Vector (Option Byte) 9) (p : Vector Byte n) {k : Nat} (hk : k < 9) :
    (writeEcho buf p.toList)[k] = if h : k < n then some p[k] else buf[k] := by
  by_cases h : k < n <;> simp [writeEcho, h]

/-- Three echoed bytes leave the last six of ECHO_BUF as they are (R224). -/
theorem writeEcho_three (buf : Vector (Option Byte) 9) (p : Vector Byte 3) :
    writeEcho buf p.toList =
      #v[some p[0], some p[1], some p[2], buf[3], buf[4], buf[5], buf[6], buf[7], buf[8]] := by
  ext1 k hk
  rw [getElem_writeEcho]
  interval_cases k <;> rfl

/-- Nine echoed bytes fill ECHO_BUF (R224). -/
theorem writeEcho_nine (buf : Vector (Option Byte) 9) (p : Vector Byte 9) : writeEcho buf p.toList = p.map some := by
  ext1 k hk
  rw [getElem_writeEcho, dif_pos hk, Vector.getElem_map]

/-- An echo's bytes are those sent when they agree with CMD_BUF[1..n] one by one (R225). -/
theorem toList_eq_sentSlice_iff {n : Nat} (hn : n ≤ 9) (buf : Vector Byte 10) (p : Vector Byte n) :
    p.toList = sentSlice buf n ↔ ∀ k : Fin n, p[k] = buf[k.val + 1] := by
  have hbytes : p.toList = sentSlice buf n ↔
      n ≤ 9 ∧ ∀ (k : Nat) (_ : k < n) (_ : k < 9), p[k] = buf[k + 1] := by
    simp [List.ext_getElem_iff, sentSlice, slice]
  rw [hbytes, Fin.forall_iff]
  exact ⟨fun ⟨_, h⟩ k hk => h k hk (by omega), fun h => ⟨hn, fun k hk _ => h k hk⟩⟩

/-- Three bytes are those sent (R225). -/
theorem toList_eq_sentSlice_three (buf : Vector Byte 10) (p : Vector Byte 3) :
    p.toList = sentSlice buf 3 ↔ p[0] = buf[1] ∧ p[1] = buf[2] ∧ p[2] = buf[3] := by
  rw [toList_eq_sentSlice_iff (by decide)]
  simp [Fin.forall_fin_succ]

/-- With a frame in CMD_BUF the comparison with it answers (R225). -/
theorem exists_matchesSent (f : Byte) (n : Nat) (buf : Vector Byte 10) (r : Result) :
    ∃ m, r.matchesSent f n (some buf) = .ok m := by
  unfold Result.matchesSent
  split
  · split_ifs <;> exact ⟨_, rfl⟩
  all_goals exact ⟨_, rfl⟩

section echo
variable {s : State} {buf : Vector Byte 10} (hbuf : s.cmdBuf = some buf)
  (hop : s.op = 1#8 ∨ s.op = 2#8 ∨ s.op = 3#8 ∨ s.op = 4#8)
include hbuf hop

/-- The comparison of a MagConfigEcho: right for opcode 3, for opcode 1 when its bytes are those sent (R225, R228). -/
theorem echoOk_magEcho (e : List Byte) :
    s.echoOk (.echo 0x02#8 e) = .ok (decide (s.op = 3#8 ∨ (s.op = 1#8 ∧ e = sentSlice buf 3))) := by
  rcases hop with h | h | h | h <;> simp [State.echoOk, h, hbuf, Result.matchesSent, Result.isEchoOf, beq_eq_decide]

/-- The comparison of an ImuConfigEcho: right for opcode 4, for opcode 2 when its bytes are those sent (R225, R228). -/
theorem echoOk_imuEcho (e : List Byte) :
    s.echoOk (.echo 0x03#8 e) = .ok (decide (s.op = 4#8 ∨ (s.op = 2#8 ∧ e = sentSlice buf 9))) := by
  rcases hop with h | h | h | h <;> simp [State.echoOk, h, hbuf, Result.matchesSent, Result.isEchoOf, beq_eq_decide]

/-- The comparison answers for every result (R225). -/
theorem exists_echoOk (r : Result) : ∃ m, s.echoOk r = .ok m := by
  rcases hop with h | h | h | h
  all_goals rw [State.echoOk, h]
  · rw [hbuf]; exact exists_matchesSent 0x02#8 3 buf r
  · rw [hbuf]; exact exists_matchesSent 0x03#8 9 buf r
  · exact ⟨_, rfl⟩
  · exact ⟨_, rfl⟩

end echo

/-- Settles O45: the comparison answers, and what the echo phase records is written out byte by byte. -/
theorem echoFrameIsRecordedAndCompared : Obligations.EchoFrameIsRecordedAndCompared := by
  intro s buf hseq hsub hbuf hop
  refine ⟨fun p => ?mag, fun p => ?imu⟩
  case mag =>
    refine (finishRead_echoPhase hseq hsub (echoOk_magEcho hbuf hop p.toList)).trans ?_
    simp only [echoTaken, State.recordEcho, writeEcho_three, toList_eq_sentSlice_three, Vector.length_toList]
  case imu =>
    refine (finishRead_echoPhase hseq hsub (echoOk_imuEcho hbuf hop p.toList)).trans ?_
    simp only [echoTaken, State.recordEcho, writeEcho_nine, toList_eq_sentSlice_iff (le_refl 9), Vector.length_toList]

/-! ### Where a frame completes -/

/-- With no read outstanding no rule covers a result (R241, log 15). -/
theorem deliver_of_not_readOutstanding {s : State} (h : s.readOutstanding = false) (r : Result) :
    deliver r s = .fault .resultWithoutRead := by
  unfold deliver
  split
  · rename_i hseq
    rw [State.readOutstanding, hseq] at h
    cases h
  · rename_i hseq
    rw [State.readOutstanding, hseq] at h
    split
    · rename_i hsub; rw [hsub] at h; cases h
    · rename_i hsub; rw [hsub] at h; cases h
    · rfl
  all_goals rfl

/-- Settles O49: a frame hands one result to the sequencer, whose phases all answer it. -/
theorem frameCompletesWithReadOutstanding : Obligations.FrameCompletesWithReadOutstanding := by
  intro i s hframe
  obtain ⟨r, hexec, -⟩ := exec_frame s hframe
  rw [hexec]
  refine ⟨fun hseq => ?collecting, fun hseq hsub => ?ack, fun hseq hsub hop hbuf => ?echo, fun hnone => ?none⟩
  case collecting => exact ⟨_, finishRead_collecting hseq r⟩
  case ack => exact ⟨_, deliver_ack (s := s.endRead) hseq hsub r⟩
  case echo =>
    obtain ⟨buf, hbuf⟩ := hbuf
    obtain ⟨m, hm⟩ := exists_echoOk hbuf hop r
    exact ⟨_, finishRead_echoPhase hseq hsub hm⟩
  case none => exact deliver_of_not_readOutstanding (s := s.endRead) hnone r

end Sys2Proof.Claims
end

section
/-! PROOFS. The invariant at reset. -/

namespace Sys2Proof.Claims

open Sys2Proof.Machine

/-- Settles O52: no read is outstanding and no window is open, no session has counted anything, and each other part is its
clause for the IDLE state before any command (R300). -/
theorem invariantHoldsAtReset : Obligations.InvariantHoldsAtReset := by
  have hparser : State.reset.parserOk = true := State.parserOk_of (.inl ⟨rfl, rfl⟩) (Nat.zero_le 58)
  have hsingle : State.reset.singleOk = true := by decide
  have hexpected : State.reset.expectedOk = true := by decide
  exact State.inv_iff.2 ⟨hparser, rfl, rfl, rfl, rfl, rfl, hsingle, hexpected, rfl, rfl, rfl⟩

end Sys2Proof.Claims
end

section
/-! PROOFS. What the operations of a step leave unchanged. -/

namespace Sys2Proof.Claims

open Sys2Proof.Machine

variable {s t : State}

/-- SendDone writes SEQ_STATE, SUB and PST at most (R223). -/
theorem sendDone_frame (s : State) :
    s.sendDone = { s with seqState := s.sendDone.seqState, sub := s.sendDone.sub, pst := s.sendDone.pst } := by
  unfold State.sendDone
  split <;> rfl

/-- The echo phase records in the echo registers and LAST_INV at most (R224). -/
theorem recordEcho_frame (r : Result) (s : State) :
    s.recordEcho r =
      { s with
        echoFlag := (s.recordEcho r).echoFlag, echoLen := (s.recordEcho r).echoLen, echoBuf := (s.recordEcho r).echoBuf
        echoValid := (s.recordEcho r).echoValid, lastInv := (s.recordEcho r).lastInv
        lastInvFlag := (s.recordEcho r).lastInvFlag } := by
  cases r <;> rfl

/-- `t` has IDX, the command registers, the parameters and the events to come of `s`: a result writes none of them. -/
def commandKept (s t : State) : Prop :=
  t.idx = s.idx ∧ (t.cmdBuf = s.cmdBuf ∧ t.op = s.op ∧ t.mask = s.mask) ∧ t.params = s.params ∧ t.inputs = s.inputs

/-- The end of a session writes SEQ_STATE, MISSING and the log (R237). -/
theorem endSession_eq (s : State) (st : SeqState) :
    s.endSession st = { s with
      seqState := st, missing := missingAtEnd s s.recCount
      log := s.log ++ [.sessionEnd (sessionReport s st s.recCount s.invCount s.lastError)] } := by
  have hreport := report_settleMissing { s with seqState := st } st
  unfold State.endSession
  simp only [hreport]
  rfl

theorem commandKept_of_delivery (h : Delivery s t) : commandKept s t := by
  cases h with
  | echoTaken r m hs hp ht =>
    subst ht
    rw [echoTaken, recordEcho_frame]
    exact ⟨rfl, ⟨rfl, rfl, rfl⟩, rfl, rfl⟩
  | recordEnds | recordKept | invalidAborts | invalidKept | completeEnds | debugKept | echoDropped | ackMatched
  | ackFailed =>
    rename_i ht
    simp [commandKept, ht, endSession_eq, recordEmitted, invalidNoted, ackNoted, State.startRead]

end Sys2Proof.Claims
end

section
/-! PROOFS. The invariant without its parser part, by acquisition state. -/

namespace Sys2Proof.Claims

open Sys2Proof.Machine

/-- The parts of the invariant on the session's counters, its expected count and its error. -/
def countsOk (s : State) : Prop :=
  s.invCountOk = true ∧ s.singleOk = true ∧ s.expectedOk = true ∧ s.errorOk = true

/-- The invariant without its parser part. -/
def sequencerOk (s : State) : Prop :=
  s.txIdxOk = true ∧ s.cmdBufOk = true ∧ s.modeOk = true ∧ s.subOk = true ∧ countsOk s ∧ s.echoBufOk = true ∧
    s.exchangeOk = true

theorem inv_iff_parser_sequencer {s : State} : s.inv = true ↔ s.parserOk = true ∧ sequencerOk s := by
  simp only [State.inv_iff, sequencerOk, countsOk, and_assoc]

/-- CMD_BUF holds the frame of OP (R30, R33). -/
def framed (s : State) : Prop :=
  ∃ buf, s.cmdBuf = some buf ∧ buf[0] = s.op ∧ 1 ≤ s.op.toNat ∧ s.op.toNat ≤ 8

/-- EXPECTED and EXP_VALID are those of MODE (R38, R232). -/
def expects (s : State) : Prop :=
  s.expValid = (s.mode == .cont) ∧ s.expected < 2 ^ 56 ∧ (s.expValid = false → s.expected = 0)

/-- What a session carries along, whatever its acquisition state. -/
def carried (s : State) : Prop := framed s ∧ expects s ∧ s.echoBufOk = true

/-- MODE and OP are those of a measurement session (R34, R222, R238). -/
def measures (s : State) : Prop :=
  (s.mode = .single ∧ s.op = 5#8) ∨ (s.mode = .cont ∧ s.op = 6#8) ∨ (s.mode = .stream ∧ (s.op = 7#8 ∨ s.op = 8#8))

/-- MODE and OP are those of a configuration exchange (R34, R222). -/
def configures (s : State) : Prop := configOp s.op = true ∧ s.mode = .none

/-- MODE and OP are those of a command without response (R34, R238). -/
def commands (s : State) : Prop := (s.op = 7#8 ∨ s.op = 8#8) ∧ s.mode = .none

/-- Nothing has been counted, settled or raised yet in the session (R222). -/
def uncounted (s : State) : Prop := s.invCount = 0 ∧ s.recCount = 0 ∧ s.missing = 0 ∧ s.lastError = .none

/-- LAST_ERROR is set exactly when an invalid frame has been counted (R231, R279). -/
def errorCounted (s : State) : Prop :=
  if s.invCount = 0 then s.lastError = .none
  else s.lastError = .invalidFrame ∨ s.lastError = .unrecognizedPacketFlag

/-- A SINGLE session has at most `n` records (R230). -/
def singleBound (n : Nat) (s : State) : Prop := s.mode = .single → s.recCount ≤ n

/-- MISSING is EXPECTED − REC_COUNT in a session with an expected count, and 0 in any other (R237). -/
def settled (s : State) : Prop := s.missing = if s.expValid then (s.expected : Int) - (s.recCount : Int) else 0

section parts
variable {s : State}

theorem cmdBufOk_of_framed (h : framed s) : s.cmdBufOk = true := by
  obtain ⟨buf, hbuf, hop⟩ := h
  rw [State.cmdBufOk, hbuf]
  exact decide_eq_true hop

theorem cmdBufOk_iff_of_busy (hbusy : s.busy = true) : s.cmdBufOk = true ↔ framed s := by
  refine ⟨fun h => ?_, cmdBufOk_of_framed⟩
  cases hbuf : s.cmdBuf with
  | none => simp [State.cmdBufOk, hbuf, hbusy] at h
  | some buf =>
    rw [State.cmdBufOk, hbuf] at h
    exact ⟨buf, hbuf, of_decide_eq_true h⟩

theorem modeOk_iff_measures
    (hseq : s.seqState ∈ [SeqState.measCmdSent, .collecting, .complete, .aborted]) :
    s.modeOk = true ↔ measures s := by
  simp only [List.mem_cons, List.not_mem_nil, or_false] at hseq
  rcases hseq with hseq | hseq | hseq | hseq <;> cases hmode : s.mode <;>
    simp [State.modeOk, measures, hseq, hmode]

theorem modeOk_iff_configures (hseq : s.seqState ∈ [SeqState.configSent, .configured, .configFailed]) :
    s.modeOk = true ↔ configures s := by
  simp only [List.mem_cons, List.not_mem_nil, or_false] at hseq
  rcases hseq with hseq | hseq | hseq <;> simp [State.modeOk, configures, hseq]

theorem expectedOk_iff : s.expectedOk = true ↔
    expects s ∧ s.missing = if s.expValid && s.done then (s.expected : Int) - (s.recCount : Int) else 0 := by
  rw [State.expectedOk, decide_eq_true_iff, expects, and_assoc, and_assoc]

theorem singleOk_iff : s.singleOk = true ↔ singleBound 1 s ∧ (s.seqState ≠ .complete → singleBound 0 s) := by
  simp only [State.singleOk, decide_eq_true_iff, singleBound, Nat.le_zero]
  exact ⟨fun h => ⟨fun hm => (h hm).1, fun hs hm => (h hm).2 hs⟩, fun h hm => ⟨h.1 hm, fun hs => h.2 hs hm⟩⟩

theorem singleBound_mono {m n : Nat} (hmn : m ≤ n) (h : singleBound m s) : singleBound n s :=
  fun hmode => (h hmode).trans hmn

theorem singleBound_of_recCount (n : Nat) (h : s.recCount = 0) : singleBound n s := fun _ => h.trans_le n.zero_le

theorem subOk_of_tx (hsub : s.sub = .tx) : s.subOk = true := by simp [State.subOk, hsub]

/-- Outside CONFIG_SENT, SUB is TX (R32). -/
theorem subOk_iff (hseq : s.seqState ≠ .configSent) : s.subOk = true ↔ s.sub = .tx := by simp [State.subOk, hseq]

/-- Before its first read a session has counted nothing (R36, R37, R222). -/
theorem countsOk_iff_uncounted (hseq : s.seqState ∈ [SeqState.configSent, .measCmdSent, .cmdSent]) :
    countsOk s ↔ expects s ∧ uncounted s := by
  have hparts : (s.invCountOk = true ↔ s.invCount = 0 ∧ s.recCount = 0) ∧ s.done = false ∧
      (s.errorOk = true ↔ s.lastError = .none) := by
    simp only [List.mem_cons, List.not_mem_nil, or_false] at hseq
    rcases hseq with hseq | hseq | hseq <;> simp [State.invCountOk, State.done, State.errorOk, hseq]
  obtain ⟨hcounts, hdone, herror⟩ := hparts
  rw [countsOk, hcounts, singleOk_iff, expectedOk_iff, herror, hdone, Bool.and_false, if_neg Bool.false_ne_true]
  constructor
  · rintro ⟨⟨hinv, hrec⟩, -, ⟨hexpects, hmissing⟩, hnone⟩
    exact ⟨hexpects, hinv, hrec, hmissing, hnone⟩
  · rintro ⟨hexpects, hinv, hrec, hmissing, hnone⟩
    exact ⟨⟨hinv, hrec⟩, ⟨singleBound_of_recCount 1 hrec, fun _ => singleBound_of_recCount 0 hrec⟩,
      ⟨hexpects, hmissing⟩, hnone⟩

/-- In Collecting the counts are within their bounds and MISSING is not settled yet (R37, R231). -/
theorem countsOk_iff_of_collecting (hseq : s.seqState = .collecting) : countsOk s ↔
    expects s ∧ s.invCount ≤ 9 ∧ singleBound 0 s ∧ s.missing = 0 ∧ errorCounted s := by
  have hinv : s.invCountOk = true ↔ s.invCount ≤ 9 := by
    rw [State.invCountOk, hseq]
    exact decide_eq_true_iff
  have hdone : s.done = false := by rw [State.done, hseq]
  have herror : s.errorOk = true ↔ errorCounted s := by simp [State.errorOk, errorCounted, hseq]
  rw [countsOk, hinv, singleOk_iff, expectedOk_iff, herror, hdone, Bool.and_false, if_neg Bool.false_ne_true]
  constructor
  · rintro ⟨hlimit, ⟨-, hsingle⟩, ⟨hexpects, hmissing⟩, hcounted⟩
    exact ⟨hexpects, hlimit, hsingle (by simp [hseq]), hmissing, hcounted⟩
  · rintro ⟨hexpects, hlimit, hsingle, hmissing, hcounted⟩
    exact ⟨hlimit, ⟨singleBound_mono (by decide) hsingle, fun _ => hsingle⟩, ⟨hexpects, hmissing⟩, hcounted⟩

end parts

section states
variable {s : State}

/-- CONFIG_SENT (R32, R222, R224). -/
theorem sequencerOk_iff_of_configSent (hseq : s.seqState = .configSent) : sequencerOk s ↔
    carried s ∧ configures s ∧ uncounted s ∧ s.ackKind = .none ∧ (s.sub = .ack ∨ s.cfgMatch = false) ∧
      (if s.sub = .tx then s.txIdx < 10 else s.txIdx = 10) := by
  have htx : s.txIdxOk = true ↔ if s.sub = .tx then s.txIdx < 10 else s.txIdx = 10 := by
    simp [State.txIdxOk, State.sending, hseq]
  have hsub : s.subOk = true := by simp [State.subOk, hseq]
  have hexchange : s.exchangeOk = true ↔ s.ackKind = .none ∧ (s.sub = .ack ∨ s.cfgMatch = false) := by
    simp [State.exchangeOk, hseq]
  rw [sequencerOk, htx, cmdBufOk_iff_of_busy (busy_of_configSent hseq), modeOk_iff_configures (by simp [hseq]), hsub,
    countsOk_iff_uncounted (by simp [hseq]), hexchange, carried]
  tauto

/-- MEAS_CMD_SENT (R222). -/
theorem sequencerOk_iff_of_measCmdSent (hseq : s.seqState = .measCmdSent) : sequencerOk s ↔
    carried s ∧ measures s ∧ uncounted s ∧ s.sub = .tx ∧ s.txIdx < 10 := by
  have htx : s.txIdxOk = true ↔ s.txIdx < 10 := by simp [State.txIdxOk, State.sending, hseq]
  have hbusy : s.busy = true := by rw [State.busy, hseq]
  have hexchange : s.exchangeOk = true := by rw [State.exchangeOk, hseq]
  rw [sequencerOk, htx, cmdBufOk_iff_of_busy hbusy, modeOk_iff_measures (by simp [hseq]), subOk_iff (by simp [hseq]),
    countsOk_iff_uncounted (by simp [hseq]), hexchange, carried]
  tauto

/-- CMD_SENT (R222, R238). -/
theorem sequencerOk_iff_of_cmdSent (hseq : s.seqState = .cmdSent) : sequencerOk s ↔
    carried s ∧ commands s ∧ uncounted s ∧ s.sub = .tx ∧ s.txIdx < 10 := by
  have htx : s.txIdxOk = true ↔ s.txIdx < 10 := by simp [State.txIdxOk, State.sending, hseq]
  have hbusy : s.busy = true := by rw [State.busy, hseq]
  have hmode : s.modeOk = true ↔ commands s := by simp [State.modeOk, commands, hseq]
  have hexchange : s.exchangeOk = true := by rw [State.exchangeOk, hseq]
  rw [sequencerOk, htx, cmdBufOk_iff_of_busy hbusy, hmode, subOk_iff (by simp [hseq]),
    countsOk_iff_uncounted (by simp [hseq]), hexchange, carried]
  tauto

/-- COLLECTING (R229 to R231). -/
theorem sequencerOk_iff_of_collecting (hseq : s.seqState = .collecting) : sequencerOk s ↔
    carried s ∧ measures s ∧ s.invCount ≤ 9 ∧ singleBound 0 s ∧ s.missing = 0 ∧ errorCounted s ∧ s.sub = .tx ∧
      s.txIdx = 10 := by
  have htx : s.txIdxOk = true ↔ s.txIdx = 10 := by simp [State.txIdxOk, State.sending, hseq]
  have hexchange : s.exchangeOk = true := by rw [State.exchangeOk, hseq]
  rw [sequencerOk, htx, cmdBufOk_iff_of_busy (busy_of_collecting hseq), modeOk_iff_measures (by simp [hseq]),
    subOk_iff (by simp [hseq]), countsOk_iff_of_collecting hseq, hexchange, carried]
  tauto

end states

/-! ### The end of a session -/

section ends
variable {s : State}

theorem settled_endSession (st : SeqState) (hmissing : s.missing = 0) : settled (s.endSession st) := by
  rw [endSession_eq, settled, missingAtEnd, hmissing]

/-- A measurement session that ends in COMPLETE (R230, R233). -/
theorem sequencerOk_endSession_complete (hcarried : carried s) (hmeasures : measures s) (hlimit : s.invCount ≤ 9)
    (hsingle : singleBound 1 s) (hmissing : s.missing = 0) (herror : errorCounted s) (hsub : s.sub = .tx)
    (htx : s.txIdx = 10) : sequencerOk (s.endSession .complete) := by
  have hsettled := settled_endSession .complete hmissing
  rw [endSession_eq] at hsettled ⊢
  obtain ⟨hframed, hexpects, hecho⟩ := hcarried
  refine ⟨decide_eq_true htx, cmdBufOk_of_framed hframed, (modeOk_iff_measures (by simp)).2 hmeasures, subOk_of_tx hsub,
    ⟨decide_eq_true hlimit, singleOk_iff.2 ⟨hsingle, by simp⟩, expectedOk_iff.2 ⟨hexpects, ?missing⟩, ?error⟩,
    hecho, rfl⟩
  case missing => simpa [settled, State.done] using hsettled
  case error => simpa [State.errorOk, errorCounted] using herror

/-- A measurement session that ends in ABORTED (R231). -/
theorem sequencerOk_endSession_aborted (hcarried : carried s) (hmeasures : measures s) (hlimit : s.invCount = 10)
    (hsingle : singleBound 0 s) (hmissing : s.missing = 0) (herror : s.lastError = .tooManyInvalidFrames)
    (hsub : s.sub = .tx) (htx : s.txIdx = 10) : sequencerOk (s.endSession .aborted) := by
  have hsettled := settled_endSession .aborted hmissing
  rw [endSession_eq] at hsettled ⊢
  obtain ⟨hframed, hexpects, hecho⟩ := hcarried
  refine ⟨decide_eq_true htx, cmdBufOk_of_framed hframed, (modeOk_iff_measures (by simp)).2 hmeasures, subOk_of_tx hsub,
    ⟨decide_eq_true hlimit, singleOk_iff.2 ⟨singleBound_mono (by decide) hsingle, fun _ => hsingle⟩,
      expectedOk_iff.2 ⟨hexpects, ?missing⟩, ?error⟩, hecho, rfl⟩
  case missing => simpa [settled, State.done] using hsettled
  case error => simp [State.errorOk, herror]

/-- A configuration exchange that ends (R226). -/
theorem sequencerOk_endSession_config (hcarried : carried s) (hconfigures : configures s) (hinv : s.invCount = 0)
    (hrec : s.recCount = 0) (hmissing : s.missing = 0) (hack : s.ackKind ≠ .none) (hsub : s.sub = .tx)
    (htx : s.txIdx = 10) {st : SeqState}
    (hst : (st = .configured ∧ s.cfgMatch = true ∧ s.lastError = .none) ∨
      (st = .configFailed ∧ s.cfgMatch = false ∧ s.lastError = .configMismatch)) : sequencerOk (s.endSession st) := by
  have hsettled := settled_endSession st hmissing
  have hbound (n : Nat) : singleBound n s := singleBound_of_recCount n hrec
  rw [endSession_eq] at hsettled ⊢
  obtain ⟨hframed, hexpects, hecho⟩ := hcarried
  rcases hst with ⟨rfl, hmatch, herror⟩ | ⟨rfl, hmatch, herror⟩
  all_goals
    refine ⟨decide_eq_true htx, cmdBufOk_of_framed hframed, (modeOk_iff_configures (by simp)).2 hconfigures,
      subOk_of_tx hsub, ⟨decide_eq_true ⟨hinv, hrec⟩, singleOk_iff.2 ⟨hbound 1, fun _ => hbound 0⟩,
        expectedOk_iff.2 ⟨hexpects, ?missing⟩, ?error⟩, hecho, ?exchange⟩
    case missing => simpa [settled, State.done] using hsettled
    case error => simp [State.errorOk, herror]
    case exchange => simp [State.exchangeOk, hack, hmatch]

end ends

end Sys2Proof.Claims
end

section
/-! PROOFS. What a step does to a session keeps the sequencer's part of the invariant: results, sends and acceptance. -/

namespace Sys2Proof.Claims

open Sys2Proof.Machine

section results
variable {s t : State} {r : Result}

/-- The Collecting loop keeps the sequencer's part of the invariant (R229 to R231, R233, R236). -/
theorem sequencerOk_collect (hseq : s.seqState = .collecting) (hok : sequencerOk s) (r : Result) :
    sequencerOk (collect r s) := by
  obtain ⟨hcarried, hmeasures, hlimit, hsingle, hmissing, herror, hsub, htx⟩ :=
    (sequencerOk_iff_of_collecting hseq).1 hok
  have hone : singleBound 1 s := singleBound_mono (by decide) hsingle
  rcases collect_cases r s with ⟨rec, -, ⟨hmode, ht⟩ | ⟨hmode, ht⟩⟩ | ⟨reason, f, -, ⟨hx, ht⟩ | ⟨hx, ht⟩⟩ | ⟨-, ht⟩ |
    ⟨d, -, ht⟩ | ⟨f, e, -, ht⟩
  all_goals rw [ht]
  · have hone' : s.recCount + 1 ≤ 1 := by have := hsingle hmode; omega
    exact sequencerOk_endSession_complete (s := recordEmitted rec s) hcarried hmeasures hlimit (fun _ => hone')
      hmissing herror hsub htx
  · exact (sequencerOk_iff_of_collecting (s := (recordEmitted rec s).startRead) hseq).2
      ⟨hcarried, hmeasures, hlimit, fun h => absurd h hmode, hmissing, herror, hsub, htx⟩
  · exact sequencerOk_endSession_aborted (s := (invalidNoted reason f s).raiseError .tooManyInvalidFrames) hcarried
      hmeasures (show s.invCount + 1 = 10 by omega) hsingle hmissing rfl hsub htx
  · have hcounted : errorCounted (invalidNoted reason f s) := by
      cases reason <;> simp [errorCounted, invalidNoted, InvalidReason.error]
    exact (sequencerOk_iff_of_collecting (s := (invalidNoted reason f s).startRead) hseq).2
      ⟨hcarried, hmeasures, hx, hsingle, hmissing, hcounted, hsub, htx⟩
  · exact sequencerOk_endSession_complete hcarried hmeasures hlimit hone hmissing herror hsub htx
  · exact hok
  · exact hok

/-- The bytes an echo of at most nine bytes puts in ECHO_BUF (R224). -/
theorem take_writeEcho (buf : Vector (Option Byte) 9) {e : List Byte} (hlen : e.length ≤ 9) :
    (writeEcho buf e).toList.take e.length = e.map some := by
  apply List.ext_getElem
  · simp [hlen]
  · intro k h1 h2
    have hk : k < e.length := by simpa using h2
    simp [writeEcho, hk]

/-- A recorded echo has its flag's length and written bytes (R40, R224). -/
theorem echoBufOk_recordEcho (hlen : r.echoLengthOk) (hecho : s.echoBufOk = true) :
    (s.recordEcho r).echoBufOk = true := by
  cases r with
  | echo f e =>
    have hflag := hlen f e rfl
    have hwritten := take_writeEcho s.echoBuf (e := e) (by omega)
    simp only [State.echoBufOk, State.recordEcho, if_true, hwritten, allWritten_map_some, Option.isSome_some,
      Bool.and_true]
    exact decide_eq_true hflag
  | complete | record | debug | invalid => exact hecho

/-- The echo phase's record of its result (R224). -/
theorem sequencerOk_recordEcho (hlen : r.echoLengthOk) (hok : sequencerOk s) : sequencerOk (s.recordEcho r) := by
  have hecho' (hecho : s.echoBufOk = true) := echoBufOk_recordEcho hlen hecho
  rw [recordEcho_frame] at hecho' ⊢
  obtain ⟨htx, hbuf, hmode, hsub, hcounts, hecho, hexchange⟩ := hok
  exact ⟨htx, hbuf, hmode, hsub, hcounts, hecho' hecho, hexchange⟩

/-- The end of the echo phase: the comparison's answer is kept and the acknowledgment read opens (R224). -/
theorem sequencerOk_echoCompared (hseq : s.seqState = .configSent) (hsub : s.sub = .echo) (m : Bool)
    (hok : sequencerOk s) : sequencerOk { s with cfgMatch := m, sub := .ack, pst := .flag } := by
  obtain ⟨hcarried, hconfigures, hcounts, hack, -, htx⟩ := (sequencerOk_iff_of_configSent hseq).1 hok
  rw [if_neg (by simp [hsub])] at htx
  exact (sequencerOk_iff_of_configSent (s := { s with cfgMatch := m, sub := .ack, pst := .flag }) hseq).2
    ⟨hcarried, hconfigures, hcounts, hack, .inl rfl, htx⟩

theorem recordEcho_sub (r : Result) (s : State) : (s.recordEcho r).sub = s.sub := by cases r <;> rfl

/-- The echo phase keeps the sequencer's part of the invariant (R224). -/
theorem sequencerOk_echoTaken (hseq : s.seqState = .configSent) (hsub : s.sub = .echo) (hlen : r.echoLengthOk)
    (hok : sequencerOk s) (m : Bool) : sequencerOk (echoTaken r m s) :=
  sequencerOk_echoCompared ((recordEcho_seqState r s).trans hseq) ((recordEcho_sub r s).trans hsub) m
    (sequencerOk_recordEcho hlen hok)

theorem kind_ne_none (r : Result) : r.kind ≠ .none := by cases r <;> simp [Result.kind]

/-- The acknowledgment phase keeps the sequencer's part of the invariant (R226). -/
theorem sequencerOk_ackPhase (hseq : s.seqState = .configSent) (hsub : s.sub = .ack) (hok : sequencerOk s)
    (r : Result) : sequencerOk (ackPhase r s) := by
  obtain ⟨hcarried, hconfigures, ⟨hinv, hrec, hmissing, herror⟩, -, -, htx⟩ :=
    (sequencerOk_iff_of_configSent hseq).1 hok
  rw [if_neg (by simp [hsub])] at htx
  obtain ⟨inv, f, -, ⟨hmatch, ht⟩ | ⟨hmatch, ht⟩⟩ := ackPhase_cases r s
  all_goals rw [ht]
  · exact sequencerOk_endSession_config (s := ackNoted r.kind inv f s) hcarried hconfigures hinv hrec hmissing
      (kind_ne_none r) rfl htx (.inl ⟨rfl, hmatch, herror⟩)
  · exact sequencerOk_endSession_config (s := (ackNoted r.kind inv f s).raiseError .configMismatch) hcarried hconfigures
      hinv hrec hmissing (kind_ne_none r) rfl htx (.inr ⟨rfl, hmatch, rfl⟩)

/-- The delivery of a result keeps the sequencer's part of the invariant. -/
theorem sequencerOk_of_deliver (hlen : r.echoLengthOk) (hok : sequencerOk s) (h : deliver r s = .next t) :
    sequencerOk t := by
  rcases deliver_cases h with ⟨hseq, rfl⟩ | ⟨hseq, hsub, m, -, rfl⟩ | ⟨hseq, hsub, rfl⟩
  · exact sequencerOk_collect hseq hok r
  · exact sequencerOk_echoTaken hseq hsub hlen hok m
  · exact sequencerOk_ackPhase hseq hsub hok r

end results

section sends
variable {s : State}

/-- A byte of the command frame before the last (R191). -/
theorem sequencerOk_sendByte (hsend : s.sending = true) (hidx : s.txIdx < 9) (b : Byte) (hok : sequencerOk s) :
    sequencerOk (s.sendByte b) := by
  obtain ⟨-, hrest⟩ := hok
  have hlt : s.txIdx + 1 < 10 := by omega
  have htx : (s.sendByte b).txIdxOk = true := (if_pos hsend).trans (decide_eq_true hlt)
  exact ⟨htx, hrest⟩

/-- A command without response ends at the last byte of its frame (R223). -/
theorem sequencerOk_idle (hcarried : carried s) (hcommands : commands s) (hcounts : uncounted s) (hsub : s.sub = .tx)
    (htx : s.txIdx = 10) : sequencerOk { s with seqState := .idle } := by
  obtain ⟨hframed, hexpects, hecho⟩ := hcarried
  obtain ⟨hop, hmode⟩ := hcommands
  obtain ⟨hinv, hrec, hmissing, herror⟩ := hcounts
  have hbound (n : Nat) : singleBound n s := singleBound_of_recCount n hrec
  refine ⟨decide_eq_true htx, cmdBufOk_of_framed hframed, ?mode, subOk_of_tx hsub, ⟨decide_eq_true ⟨hinv, hrec⟩,
    singleOk_iff.2 ⟨hbound 1, fun _ => hbound 0⟩, expectedOk_iff.2 ⟨hexpects, ?missing⟩, ?error⟩, hecho, rfl⟩
  case mode => rcases hop with hop | hop <;> simp [State.modeOk, hop, hmode]
  case missing => simp [State.done, hmissing]
  case error => simp [State.errorOk, herror]

/-- The last byte of the command frame (R223). -/
theorem sequencerOk_sendDone (hsend : s.sending = true) (hidx : s.txIdx = 9) (b : Byte) (hok : sequencerOk s) :
    sequencerOk (s.sendByte b).sendDone := by
  have hten : s.txIdx + 1 = 10 := by omega
  rcases sendDone_cases (s := s.sendByte b) hsend with ⟨hseq, hsub, ht⟩ | ⟨hseq, ht⟩ | ⟨hseq, ht⟩
  all_goals rw [ht]
  · obtain ⟨hcarried, hconfigures, hcounts, hack, hmatch, -⟩ := (sequencerOk_iff_of_configSent (s := s) hseq).1 hok
    have hmiss : s.cfgMatch = false := hmatch.resolve_left (by rw [show s.sub = .tx from hsub]; simp)
    exact (sequencerOk_iff_of_configSent (s := { s.sendByte b with sub := .echo, pst := .flag }) hseq).2
      ⟨hcarried, hconfigures, hcounts, hack, .inr hmiss, hten⟩
  · obtain ⟨hcarried, hmeasures, ⟨hinv, hrec, hmissing, herror⟩, hsub, -⟩ :=
      (sequencerOk_iff_of_measCmdSent (s := s) hseq).1 hok
    exact (sequencerOk_iff_of_collecting (s := { s.sendByte b with seqState := .collecting, pst := .flag }) rfl).2
      ⟨hcarried, hmeasures, hinv.trans_le (by omega), fun _ => hrec.le, hmissing, (if_pos hinv).mpr herror, hsub, hten⟩
  · obtain ⟨hcarried, hcommands, hcounts, hsub, -⟩ := (sequencerOk_iff_of_cmdSent (s := s) hseq).1 hok
    exact sequencerOk_idle (s := s.sendByte b) hcarried hcommands hcounts hsub hten

end sends

section acceptance
variable {s : State} {i : Instr} {frame : Vector Byte 10}

theorem opcodeOf_range (hcommand : i.isCommand = true) : 1 ≤ (opcodeOf i).toNat ∧ (opcodeOf i).toNat ≤ 8 := by
  cases i with
  | fCmpl | fDebug | fMecho | fIecho | fMag | fAll | fMagt | fMagi | fUnrec => cases hcommand
  | _ => simp [opcodeOf]

/-- 48 bits of duration times 8 bits of rate fit in 56 bits (R232). -/
theorem expectedCount_lt (avg : Bool) (rate : Byte) (dur : BitVec 48) : expectedCount avg rate dur < 2 ^ 56 :=
  calc dur.toNat * (rateEnc avg rate).toNat < 2 ^ 48 * 2 ^ 8 :=
        Nat.mul_lt_mul'' dur.isLt (rateEnc avg rate).isLt
    _ = 2 ^ 56 := rfl

/-- A ready engine is not in an exchange, so SUB is TX (R32). -/
theorem sub_of_ready (hready : s.ready = true) (hok : sequencerOk s) : s.sub = .tx := by
  obtain ⟨-, -, -, hsub, -⟩ := hok
  have hseq : s.seqState ≠ .configSent := fun h => by
    simp [State.ready, busy_of_configSent h] at hready
  exact (subOk_iff hseq).1 hsub

/-- The session's registers after acceptance (R196, R222). -/
theorem sequencerOk_accepted (hcommand : i.isCommand = true) (hframe : frame[0] = opcodeOf i) (hready : s.ready = true)
    (hok : sequencerOk s) : sequencerOk ((startOf i (s.accept (opcodeOf i) frame)).answer .none 0) := by
  have hsub := sub_of_ready hready hok
  obtain ⟨-, -, -, -, -, hecho, -⟩ := hok
  let u := s.accept (opcodeOf i) frame
  have hframed : framed u := ⟨frame, rfl, hframe, opcodeOf_range hcommand⟩
  have hcounts : uncounted u := ⟨rfl, rfl, rfl, rfl⟩
  have htx : u.txIdx < 10 := show 0 < 10 by decide
  have hnone : u.expected < 2 ^ 56 := show 0 < 2 ^ 56 by decide
  rcases startOf_cases u hcommand with ⟨ht, hop⟩ | ⟨en, rfl, ht⟩ | ⟨en, avg, rate, dur, rfl, ht⟩ | ⟨resp, ht, hop⟩
  all_goals rw [ht]
  · exact (sequencerOk_iff_of_configSent (s := u.startConfig.answer .none 0) rfl).2
      ⟨⟨hframed, ⟨rfl, hnone, fun _ => rfl⟩, rfl⟩, ⟨configOp_iff.2 hop, rfl⟩, hcounts, rfl, .inr rfl, htx⟩
  · exact (sequencerOk_iff_of_measCmdSent (s := (u.startSingle en).answer .none 0) rfl).2
      ⟨⟨hframed, ⟨rfl, hnone, fun _ => rfl⟩, hecho⟩, .inl ⟨rfl, rfl⟩, hcounts, hsub, htx⟩
  · exact (sequencerOk_iff_of_measCmdSent
        (s := (u.startCont en (expectedCount avg rate dur)).answer .none 0) rfl).2
      ⟨⟨hframed, ⟨rfl, expectedCount_lt avg rate dur, nofun⟩, hecho⟩, .inr (.inl ⟨rfl, rfl⟩), hcounts, hsub, htx⟩
  · cases resp with
    | none =>
      exact (sequencerOk_iff_of_cmdSent (s := (u.startOther .none).answer .none 0) rfl).2
        ⟨⟨hframed, ⟨rfl, hnone, fun _ => rfl⟩, hecho⟩, ⟨hop, rfl⟩, hcounts, hsub, htx⟩
    | collect =>
      exact (sequencerOk_iff_of_measCmdSent (s := (u.startOther .collect).answer .none 0) rfl).2
        ⟨⟨hframed, ⟨rfl, hnone, fun _ => rfl⟩, hecho⟩, .inr (.inr ⟨rfl, hop⟩), hcounts, hsub, htx⟩

end acceptance

end Sys2Proof.Claims
end

section
/-! PROOFS. The parser's part of the invariant, and every step keeps both. -/

namespace Sys2Proof.Claims

open Sys2Proof.Machine

section window
variable {s t : State} {r : Result} {i : Instr} {frame : Vector Byte 10}

/-- With no read outstanding the parser is idle (R241). -/
theorem pst_of_not_readOutstanding (hparser : s.parserOk = true) (hread : s.readOutstanding = false) :
    s.pst = .idle := by
  obtain ⟨hused, hwindow, -, -⟩ := State.parserOk_iff.1 hparser
  exact (State.pst_of_not_rxReady (hwindow.trans hread)).resolve_right hused

theorem idx_le_of_parserOk (hparser : s.parserOk = true) : s.idx ≤ 58 := by
  obtain ⟨-, -, hidx, -⟩ := State.parserOk_iff.1 hparser
  exact hidx

theorem readOutstanding_of_ready (hready : s.ready = true) : s.readOutstanding = false := by
  unfold State.readOutstanding
  split
  · rename_i hseq; simp [State.ready, busy_of_configSent hseq] at hready
  · rename_i hseq; simp [State.ready, busy_of_collecting hseq] at hready
  all_goals rfl

/-- An accepted command starts a send (R196, R222). -/
theorem sending_of_accepted (hcommand : i.isCommand = true) (s : State) :
    ((startOf i (s.accept (opcodeOf i) frame)).answer .none 0).sending = true := by
  rcases startOf_cases (s.accept (opcodeOf i) frame) hcommand with ⟨ht, -⟩ | ⟨en, -, ht⟩ | ⟨en, avg, rate, dur, -, ht⟩ |
    ⟨resp, ht, -⟩
  all_goals rw [ht]
  case inr.inr.inr => cases resp <;> rfl
  all_goals rfl

/-- Acceptance writes no register of the parser and keeps the transport's bytes, the parameters and the events. -/
theorem startOf_parser (i : Instr) (s : State) :
    (startOf i s).pst = s.pst ∧ (startOf i s).idx = s.idx ∧ (startOf i s).rxPending = s.rxPending ∧
      (startOf i s).params = s.params ∧ (startOf i s).inputs = s.inputs := by
  cases i <;> exact ⟨rfl, rfl, rfl, rfl, rfl⟩

/-- No window opens at acceptance (R241). -/
theorem parserOk_accepted (hcommand : i.isCommand = true) (hready : s.ready = true) (hparser : s.parserOk = true) :
    ((startOf i (s.accept (opcodeOf i) frame)).answer .none 0).parserOk = true := by
  obtain ⟨hpst, hidx, -⟩ := startOf_parser i (s.accept (opcodeOf i) frame)
  refine State.parserOk_of (.inl ⟨?_, readOutstanding_of_sending (sending_of_accepted hcommand s)⟩) ?_
  · exact hpst.trans (pst_of_not_readOutstanding hparser (readOutstanding_of_ready hready))
  · exact hidx.trans_le (idx_le_of_parserOk hparser)

/-- The last byte of a command frame opens the read its state waits for (R223). -/
theorem parserOk_sendDone (hsend : s.sending = true) (hparser : s.parserOk = true) (b : Byte) :
    (s.sendByte b).sendDone.parserOk = true := by
  have hidle : s.pst = .idle := pst_of_not_readOutstanding hparser (readOutstanding_of_sending hsend)
  have hidx := idx_le_of_parserOk hparser
  rcases sendDone_cases (s := s.sendByte b) hsend with ⟨hseq, -, ht⟩ | ⟨-, ht⟩ | ⟨-, ht⟩
  all_goals rw [ht]
  · exact State.parserOk_of (.inr ⟨rfl, by simp [State.readOutstanding, hseq]⟩) hidx
  · exact State.parserOk_of (.inr ⟨rfl, rfl⟩) hidx
  · exact State.parserOk_of (.inl ⟨hidle, rfl⟩) hidx

/-- A flag byte opens a consistent payload window (R142). -/
theorem parserOk_beginPayload {b : Byte} (hpst : s.pst = .flag) (hlen : 0 < payloadLen b)
    (hparser : s.parserOk = true) : ((s.setFlag b).beginPayload (payloadLen b)).parserOk = true := by
  obtain ⟨-, hwindow, -, -⟩ := State.parserOk_iff.1 hparser
  have hread : s.readOutstanding = true := by rw [← hwindow, rxReady_of_flag hpst]
  refine State.parserOk_iff.2 ⟨by simp, hread.symm, Nat.zero_le 58, fun _ => ?_⟩
  exact decide_eq_true ⟨rfl, hlen, fun _ => by rw [List.take_nil]; rfl⟩

/-- A payload byte before the last keeps the window consistent (R153). -/
theorem parserOk_storePayload {f b : Byte} (hidx : s.idx < 58) (hpst : s.pst = .pay) (hflag : s.flag = some f)
    (hne : s.idx + 1 ≠ s.plen) (hparser : s.parserOk = true) : (s.storePayload f b hidx).parserOk = true := by
  obtain ⟨hused, hwindow, -, hfetch⟩ := State.parserOk_iff.1 hparser
  exact State.parserOk_iff.2 ⟨hused, hwindow, hidx, fun _ => State.fetchOk_store hidx hflag (hfetch hpst) hne⟩

/-- After a result a window is open exactly when the sequencer reads on (R241). -/
theorem window_of_delivery (hpst : s.pst = .idle) (h : Delivery s t) :
    t.pst = .idle ∧ t.readOutstanding = false ∨ t.pst = .flag ∧ t.readOutstanding = true := by
  have hcollecting {u : State} (hseq : u.seqState = .collecting) : u.readOutstanding = true := by
    rw [State.readOutstanding, hseq]
  have hended {u : State} (st : SeqState) (hu : u.pst = .idle) : (u.endSession st).pst = .idle := hu
  cases h with
  | recordEnds rec hs hm ht => subst ht; exact .inl ⟨hended .complete hpst, rfl⟩
  | recordKept rec hs ht => subst ht; exact .inr ⟨rfl, hcollecting hs⟩
  | invalidAborts reason f hs hx ht => subst ht; exact .inl ⟨hended .aborted hpst, rfl⟩
  | invalidKept reason f hs ht => subst ht; exact .inr ⟨rfl, hcollecting hs⟩
  | completeEnds hs ht => subst ht; exact .inl ⟨hended .complete hpst, rfl⟩
  | debugKept d hs ht => subst ht; exact .inr ⟨rfl, hcollecting hs⟩
  | echoDropped hs ht => subst ht; exact .inr ⟨rfl, hcollecting hs⟩
  | echoTaken r m hs hp ht =>
    subst ht
    have hseq : (echoTaken r m s).seqState = .configSent := (recordEcho_seqState r s).trans hs
    exact .inr ⟨rfl, by rw [State.readOutstanding, hseq]; rfl⟩
  | ackMatched k inv f hs hp hm ht => subst ht; exact .inl ⟨hended .configured hpst, rfl⟩
  | ackFailed k inv f hs hp hm ht => subst ht; exact .inl ⟨hended .configFailed hpst, rfl⟩

theorem parserOk_of_deliver (hpst : s.pst = .idle) (hidx : s.idx ≤ 58) (h : deliver r s = .next t) :
    t.parserOk = true := by
  have hdelivery := delivery_of_deliver h
  obtain ⟨hidx', -⟩ := commandKept_of_delivery hdelivery
  exact State.parserOk_of (window_of_delivery hpst hdelivery) (hidx'.trans_le hidx)

end window

/-- What a step does with an event keeps the invariant. -/
theorem inv_of_move {e : Event} {s t : State} (hinv : s.inv = true) (hmove : Move e s t) : t.inv = true := by
  obtain ⟨hparser, hok⟩ := inv_iff_parser_sequencer.1 hinv
  rw [inv_iff_parser_sequencer]
  cases hmove with
  | refused r c f he hc ht => subst ht; exact ⟨hparser, hok⟩
  | accepted r i frame he hi hr hf ht =>
    have hcommand := instr_isCommand hi
    subst ht
    exact ⟨parserOk_accepted hcommand hr hparser, sequencerOk_accepted hcommand hf hr hok⟩
  | dropped h1 h2 h3 ht => subst ht; exact ⟨hparser, hok⟩
  | sent buf he hs hb hx ht => subst ht; exact ⟨hparser, sequencerOk_sendByte hs hx _ hok⟩
  | sentLast buf he hs hb hx ht =>
    subst ht
    exact ⟨parserOk_sendDone hs hparser _, sequencerOk_sendDone hs hx _ hok⟩
  | arrived b he ht => subst ht; exact ⟨hparser, hok⟩
  | flag b rest he hp hr hl ht =>
    subst ht
    exact ⟨parserOk_beginPayload (s := { s with rxPending := rest }) hp hl hparser, hok⟩
  | payload b rest f hx he hp hr hf hl ht =>
    subst ht
    exact ⟨parserOk_storePayload (s := { s with rxPending := rest }) hx hp hf hl hparser, hok⟩
  | delivered r u hw hu he hp hx hl ht =>
    have hidx : u.idx ≤ 58 := hx.trans (max_le le_rfl (idx_le_of_parserOk hparser))
    have hok' : sequencerOk u := (congrArg sequencerOk hu).mpr hok
    exact ⟨parserOk_of_deliver hp hidx ht, sequencerOk_of_deliver hl hok' ht⟩
  | reset he ht => subst ht; exact inv_iff_parser_sequencer.1 invariantHoldsAtReset

/-- Settles O53: taking the event touches no register, and what is done with it keeps both parts of the invariant. -/
theorem stepKeepsInvariant : Obligations.StepKeepsInvariant := by
  intro s t hinv hstep
  rcases step_cases hstep with ⟨-, rfl⟩ | ⟨e, es, -, hmove⟩
  · exact hinv
  · exact inv_of_move (s := s.takeEvent es) hinv hmove

end Sys2Proof.Claims
end

section
/-! PROOFS. Every event answers in a state that meets the invariant. -/

namespace Sys2Proof.Claims

open Sys2Proof.Machine

section answers
variable {s : State}

theorem readOutstanding_iff : s.readOutstanding = true ↔
    s.seqState = .collecting ∨ (s.seqState = .configSent ∧ (s.sub = .echo ∨ s.sub = .ack)) := by
  unfold State.readOutstanding
  split <;> simp_all

/-- A busy engine has the frame it sends in CMD_BUF (R30). -/
theorem framed_of_busy (hok : sequencerOk s) (hbusy : s.busy = true) : framed s := by
  obtain ⟨-, hbuf, -⟩ := hok
  exact (cmdBufOk_iff_of_busy hbusy).1 hbuf

/-- A result has somewhere to go while a read is outstanding (R241). -/
theorem exists_finishRead (hok : sequencerOk s) (hread : s.readOutstanding = true) (r : Result) :
    ∃ t, finishRead r s = .next t := by
  rcases readOutstanding_iff.1 hread with hseq | ⟨hseq, hsub | hsub⟩
  · exact ⟨_, finishRead_collecting hseq r⟩
  · obtain ⟨-, ⟨hop, -⟩, -⟩ := (sequencerOk_iff_of_configSent hseq).1 hok
    obtain ⟨buf, hbuf, -⟩ := framed_of_busy hok (busy_of_configSent hseq)
    obtain ⟨m, hm⟩ := exists_echoOk hbuf (configOp_iff.1 hop) r
    exact ⟨_, finishRead_echoPhase hseq hsub hm⟩
  · exact ⟨_, deliver_ack (s := s.endRead) hseq hsub r⟩

theorem exists_exec_frame (hok : sequencerOk s) (hread : s.readOutstanding = true) {i : Instr}
    (hframe : i.isCommand = false) : ∃ t, exec i s = .next t := by
  obtain ⟨r, hexec, -⟩ := exec_frame s hframe
  rw [hexec]
  exact exists_finishRead hok hread r

/-- A flag and a payload of its length are a whole frame (R95). -/
theorem exists_decodeFrame {f : Byte} {p : List Byte} (hlen : payloadLen f ≤ p.length) :
    ∃ i rest, decodeFrame (f :: p) = .ok i rest ∧ i.isCommand = false := by
  obtain ⟨hframes, -⟩ := lengthFromFirstByteAlone
  obtain ⟨hwhole, -⟩ := hframes f p
  obtain ⟨i, hdecode⟩ := hwhole hlen
  exact ⟨i, _, hdecode, decodeFrame_isCommand hdecode⟩

/-- Every request is answered (R180, R192). -/
theorem exists_onRequest (r : Request) (s : State) : ∃ t, onRequest r s = .next t := by
  unfold onRequest
  split
  · rename_i i hi
    rw [exec_command (instr_isCommand hi)]
    exact commandPort_next
  · split <;> exact ⟨_, rfl⟩

theorem busy_of_sending (hsend : s.sending = true) : s.busy = true := by
  have hready := ready_of_sending hsend
  simpa [State.ready] using hready

/-- An accepted byte is one of the frame in CMD_BUF (R191). -/
theorem exists_onTxAccept (hok : sequencerOk s) : ∃ t, onTxAccept s = .next t := by
  unfold onTxAccept
  split
  · exact ⟨_, rfl⟩
  · rename_i hsend
    have hbusy := busy_of_sending (by simpa using hsend)
    obtain ⟨buf, hbuf, -⟩ := framed_of_busy hok hbusy
    rw [hbuf]
    split <;> exact ⟨_, rfl⟩

/-- A flag byte begins its payload or is a whole frame (R142). -/
theorem exists_onFlagByte (hok : sequencerOk s) (hread : s.readOutstanding = true) (b : Byte) :
    ∃ t, onFlagByte b s = .next t := by
  rcases Nat.eq_zero_or_pos (payloadLen b) with hlen | hlen
  · obtain ⟨i, rest, hdecode, hframe⟩ := exists_decodeFrame (f := b) (p := []) hlen.le
    rw [onFlagByte, hdecode]
    exact exists_exec_frame (s := s.setFlag b) hok hread hframe
  · exact ⟨_, onFlagByte_payload hlen s⟩

/-- The registers of an open payload window (R24 to R27). -/
theorem exists_of_fetchOk (hfetch : s.fetchOk = true) :
    ∃ f p, s.flag = some f ∧ s.readPayload s.idx = some p ∧ s.plen = payloadLen f ∧ s.idx < s.plen := by
  unfold State.fetchOk at hfetch
  split at hfetch
  · rename_i f p hflag hread
    obtain ⟨hplen, hidx, -⟩ := of_decide_eq_true hfetch
    exact ⟨f, p, hflag, hread, hplen, hidx⟩
  · cases hfetch

/-- A payload byte is stored or completes a whole frame (R153). -/
theorem exists_onPayloadByte (hok : sequencerOk s) (hread : s.readOutstanding = true) (hfetch : s.fetchOk = true)
    (b : Byte) : ∃ t, onPayloadByte b s = .next t := by
  obtain ⟨f, p, hflag, hpayload, hplen, hidx⟩ := exists_of_fetchOk hfetch
  have hlt : s.idx < 58 := hidx.trans_le (hplen ▸ payloadLen_le f)
  by_cases hlast : s.idx + 1 = s.plen
  · have hlen : p.length = s.idx := by
      rw [allWritten_length hpayload, List.length_take, Vector.length_toList]
      omega
    have hwhole : payloadLen f ≤ (p ++ [b]).length := by simp; omega
    obtain ⟨i, rest, hdecode, hframe⟩ := exists_decodeFrame hwhole
    rw [onPayloadByte_last hlt hflag hlast hpayload hdecode]
    exact exists_exec_frame (s := s.storePayload f b hlt) hok hread hframe
  · exact ⟨_, onPayloadByte_store hlt hflag hlast⟩

/-- A delivery is not enabled, or its byte is taken by the open window (R160). -/
theorem exists_onRxByte (hparser : s.parserOk = true) (hok : sequencerOk s) : ∃ t, onRxByte s = .next t := by
  obtain ⟨-, hwindow, -, hfetch⟩ := State.parserOk_iff.1 hparser
  unfold onRxByte
  split
  · exact ⟨_, rfl⟩
  · rename_i b rest hrx
    split
    · rename_i hpst
      have hread : s.readOutstanding = true := hwindow ▸ rxReady_of_flag hpst
      exact exists_onFlagByte (s := { s with rxPending := rest }) hok hread b
    · rename_i hpst
      have hread : s.readOutstanding = true := hwindow ▸ rxReady_of_pay hpst
      exact exists_onPayloadByte (s := { s with rxPending := rest }) hok hread (hfetch hpst) b
    all_goals exact ⟨_, rfl⟩

/-- A timeout is not enabled, or ends the open window (R152, R156). -/
theorem exists_onRxTimeout (hparser : s.parserOk = true) (hok : sequencerOk s) : ∃ t, onRxTimeout s = .next t := by
  obtain ⟨-, hwindow, -, hfetch⟩ := State.parserOk_iff.1 hparser
  unfold onRxTimeout
  split
  · rename_i hpst
    exact exists_finishRead hok (hwindow ▸ rxReady_of_flag hpst) _
  · rename_i hpst
    obtain ⟨f, -, hflag, -⟩ := exists_of_fetchOk (hfetch hpst)
    rw [hflag]
    exact exists_finishRead hok (hwindow ▸ rxReady_of_pay hpst) _
  all_goals exact ⟨_, rfl⟩

/-- Every event answers a next state under the invariant (R270). -/
theorem exists_onEvent (hinv : s.inv = true) (e : Event) : ∃ t, onEvent e s = .next t := by
  obtain ⟨hparser, hok⟩ := inv_iff_parser_sequencer.1 hinv
  cases e with
  | cmdRequest r => exact exists_onRequest r s
  | txAccept => exact exists_onTxAccept hok
  | devByte b => exact ⟨_, rfl⟩
  | rxByte => exact exists_onRxByte hparser hok
  | rxTimeout => exact exists_onRxTimeout hparser hok
  | reset => exact ⟨_, rfl⟩

end answers

/-- Settles O54: the next event answers in the state with the event taken, which meets the invariant as well. -/
theorem noStepFaults : Obligations.NoStepFaults := by
  intro s hinv
  rcases hin : s.inputs with _ | ⟨e, es⟩
  · exact ⟨s, step_idle hin⟩
  · rw [safeStep, step_cons hin]
    exact exists_onEvent (s := s.takeEvent es) hinv e

end Sys2Proof.Claims
end

section
/-! PROOFS. The transport's bytes across a step, the acknowledgment phase, and Reset. -/

namespace Sys2Proof.Claims

open Sys2Proof.Machine

/-! ### The transport's bytes -/

/-- Settles O36: arrival appends, and with no event the step is the identity. -/
theorem deviceBytesAreHeld : Obligations.DeviceBytesAreHeld :=
  ⟨fun _ _ _ hin => step_cons hin, fun _ => step_idle⟩

/-- Settles O37: the flag byte, the payload byte and the byte that ends a read take the oldest byte with a window open,
arrival appends one, and nothing else touches them. -/
theorem inboundBytesConsumedInOrder : Obligations.InboundBytesConsumedInOrder := by
  intro s t hstep
  rcases step_cases hstep with ⟨-, rfl⟩ | ⟨e, es, hin, hmove⟩
  · exact .inl rfl
  cases hmove with
  | refused r c f he hc ht => subst ht; exact .inl rfl
  | accepted r i frame he hi hr hf ht =>
    subst ht
    obtain ⟨-, -, hrx, -⟩ := startOf_parser i ((s.takeEvent es).accept (opcodeOf i) frame)
    exact .inl hrx
  | dropped h1 h2 h3 ht => subst ht; exact .inl rfl
  | sent buf he hs hb hx ht => subst ht; exact .inl rfl
  | sentLast buf he hs hb hx ht => subst ht; rw [sendDone_frame]; exact .inl rfl
  | arrived b he ht => subst he ht; exact .inr (.inr ⟨b, rfl, nextIs_of_cons hin⟩)
  | flag b rest he hp hr hl ht =>
    subst he ht
    exact .inr (.inl ⟨b, hr, rxReady_of_flag hp, nextIs_of_cons hin⟩)
  | payload b rest f hx he hp hr hf hl ht =>
    subst he ht
    exact .inr (.inl ⟨b, hr, rxReady_of_pay hp, nextIs_of_cons hin⟩)
  | delivered r u hw hu he hp hx hl ht =>
    rw [deliver_rxPending ht]
    rcases he with ⟨rfl, b, hr⟩ | ⟨-, hr⟩
    · exact .inr (.inl ⟨b, hr, hw, nextIs_of_cons hin⟩)
    · exact .inl hr
  | reset he ht => subst ht; exact .inl rfl

/-! ### The acknowledgment phase -/

/-- With no read open, End after the acknowledgment is the one CFG_MATCH selects (R226, R237). -/
theorem exchangeEnd_eq_sessionEnded {s : State} (hpst : s.pst = .idle) :
    (if s.cfgMatch then s.endSession .configured else (s.raiseError .configMismatch).endSession .configFailed) =
      sessionEnded s (if s.cfgMatch then .configured else .configFailed)
        (if s.cfgMatch then s.lastError else .configMismatch) := by
  split_ifs
  · exact endSession_eq_sessionEnded .configured hpst
  · exact endSession_eq_sessionEnded (s := s.raiseError .configMismatch) .configFailed hpst

section ack
variable {s : State} (hseq : s.seqState = .configSent) (hsub : s.sub = .ack)
include hseq hsub

/-- An Invalid result in the acknowledgment phase is recorded and ends the exchange (R226, R274). -/
theorem finishRead_invalid_of_ack (reason : InvalidReason) (f : Byte) :
    finishRead (.invalid reason f) s = .next (exchangeEnded .invalid (invalidRecorded reason f s)) := by
  have hend : ackPhase (.invalid reason f) s.endRead = exchangeEnded .invalid (invalidRecorded reason f s) :=
    exchangeEnd_eq_sessionEnded (s := ackNoted .invalid (.reason reason) f s.endRead) rfl
  exact (deliver_ack (s := s.endRead) hseq hsub _).trans (congrArg _ hend)

/-- A checksummed frame ends the exchange by its kind when its checksum holds, as an Invalid result when it does not. -/
theorem finishRead_checked_of_ack {r : Result} (hr : ∀ reason f, r ≠ .invalid reason f) (f : Byte) (ok : Prop)
    [Decidable ok] :
    finishRead (if ok then r else .invalid .checksum f) s =
      .next (if ok then exchangeEnded r.kind s else exchangeEnded .invalid (invalidRecorded .checksum f s)) := by
  split_ifs
  · exact finishRead_ackPhase hseq hsub hr
  · exact finishRead_invalid_of_ack hseq hsub .checksum f

end ack

/-- Settles O47: any result ends the exchange with its kind, and the invalid ones are recorded. -/
theorem acknowledgmentEndsExchange : Obligations.AcknowledgmentEndsExchange := by
  intro s hseq hsub bad checked
  refine ⟨?complete, fun f => ?unrecognized, fun p => ?magEcho, fun p => ?imuEcho, fun p => ?debug, fun p => ?mag,
    fun p => ?all, fun p => ?magt, fun p => ?magi, fun es hin hpst => ?absent, fun es f hin hpst hflag => ?short⟩
  case complete => exact finishRead_ackPhase hseq hsub (r := .complete) (by simp)
  case unrecognized => exact finishRead_invalid_of_ack hseq hsub .unrecognized f
  case magEcho => exact finishRead_ackPhase hseq hsub (r := .echo 0x02#8 p.toList) (by simp)
  case imuEcho => exact finishRead_ackPhase hseq hsub (r := .echo 0x03#8 p.toList) (by simp)
  case debug => exact (exec_fDebug s p).trans (finishRead_checked_of_ack hseq hsub (by simp) _ _)
  case mag => exact (exec_fMag s p).trans (finishRead_checked_of_ack hseq hsub (by simp) _ _)
  case all => exact (exec_fAll s p).trans (finishRead_checked_of_ack hseq hsub (by simp) _ _)
  case magt => exact (exec_fMagt s p).trans (finishRead_checked_of_ack hseq hsub (by simp) _ _)
  case magi => exact (exec_fMagi s p).trans (finishRead_checked_of_ack hseq hsub (by simp) _ _)
  case absent =>
    exact (step_rxTimeout_flag hin hpst).trans
      (finishRead_invalid_of_ack (s := s.takeEvent es) hseq hsub .absent 0#8)
  case short =>
    exact (step_rxTimeout_pay hin hpst hflag).trans
      (finishRead_invalid_of_ack (s := s.takeEvent es) hseq hsub .short f)

/-! ### Reset -/

/-- Settles O50: the step is Reset's register writes, each register by its reset value. -/
theorem resetRestoresEveryRegister : Obligations.ResetRestoresEveryRegister := by
  intro s es hin
  have hview : State.reset.viewState = 0x00 := by decide
  have hflags : State.reset.viewFlags = 0x02 := by decide
  refine ⟨_, step_cons hin, rfl, rfl, rfl, rfl, fun k => ?pbuf, rfl, rfl, rfl, rfl, rfl, rfl, rfl, rfl, rfl, rfl, rfl,
    rfl, rfl, fun k => ?echoBuf, rfl, rfl, rfl, rfl, rfl, rfl, rfl, rfl, hview, hflags, rfl, rfl, rfl, rfl, rfl, rfl⟩
  case pbuf => exact Vector.getElem_replicate k.isLt
  case echoBuf => exact Vector.getElem_replicate k.isLt

end Sys2Proof.Claims
end

section
/-! PROOFS. Who writes the command registers and LAST_INV, and what a step logs. -/

namespace Sys2Proof.Claims

open Sys2Proof.Machine

/-! ### MASK, OP and CMD_BUF -/

/-- The requests of the two commands that write MASK (R180). -/
theorem eq_single_of_instr {r : Request} {en : BitVec 4} (h : r.instr = some (.single en)) : r = .single en := by
  unfold Request.instr at h
  split at h <;> cases h
  rfl

theorem eq_cont_of_instr {r : Request} {en : BitVec 4} {avg : Bool} {rate : Byte} {dur : BitVec 48}
    (h : r.instr = some (.cont en avg rate dur)) : r = .cont en avg rate dur := by
  unfold Request.instr at h
  split at h <;> cases h
  rfl

/-- A session start writes MASK for SINGLE and CONT only, their own mask (R35, R222). -/
theorem mask_startOf {r : Request} {i : Instr} (s : State) (hi : r.instr = some i) :
    (startOf i s).mask = s.mask ∨ r = .single (startOf i s).mask ∨
      ∃ avg rate dur, r = .cont (startOf i s).mask avg rate dur := by
  rcases startOf_cases s (instr_isCommand hi) with ⟨ht, -⟩ | ⟨en, rfl, ht⟩ | ⟨en, avg, rate, dur, rfl, ht⟩ |
    ⟨resp, ht, -⟩
  · rw [ht]; exact .inl rfl
  · exact .inr (.inl (eq_single_of_instr hi))
  · exact .inr (.inr ⟨avg, rate, dur, eq_cont_of_instr hi⟩)
  · rw [ht]; exact .inl rfl

/-- MASK, OP and CMD_BUF are those of `s`, and so are the parameters; one event has been taken. -/
def commandRegistersKept (s t : State) : Prop :=
  (t.mask = s.mask ∧ t.op = s.op ∧ t.cmdBuf = s.cmdBuf) ∧ t.params = s.params ∧ t.inputs = s.inputs.tail

/-- An accepted request writes the command registers; otherwise only Reset does (R33, R35, R30). -/
theorem commandRegisters_of_step {s t : State} (hstep : step s = .next t) :
    commandRegistersKept s t ∨ nextIs s .reset = true ∨
      ∃ r i frame es, s.inputs = .cmdRequest r :: es ∧ r.instr = some i ∧ s.ready = true ∧
        t = (startOf i ((s.takeEvent es).accept (opcodeOf i) frame)).answer .none 0 := by
  rcases step_cases hstep with ⟨hin, rfl⟩ | ⟨e, es, hin, hmove⟩
  · exact .inl ⟨⟨rfl, rfl, rfl⟩, rfl, by rw [hin]; rfl⟩
  have htail : es = s.inputs.tail := by rw [hin]; rfl
  cases hmove with
  | refused r c f he hc ht => subst ht; exact .inl ⟨⟨rfl, rfl, rfl⟩, rfl, htail⟩
  | accepted r i frame he hi hr hf ht => subst he; exact .inr (.inr ⟨r, i, frame, es, hin, hi, hr, ht⟩)
  | dropped h1 h2 h3 ht => subst ht; exact .inl ⟨⟨rfl, rfl, rfl⟩, rfl, htail⟩
  | sent buf he hs hb hx ht => subst ht; exact .inl ⟨⟨rfl, rfl, rfl⟩, rfl, htail⟩
  | sentLast buf he hs hb hx ht => subst ht; rw [sendDone_frame]; exact .inl ⟨⟨rfl, rfl, rfl⟩, rfl, htail⟩
  | arrived b he ht => subst ht; exact .inl ⟨⟨rfl, rfl, rfl⟩, rfl, htail⟩
  | flag b rest he hp hr hl ht => subst ht; exact .inl ⟨⟨rfl, rfl, rfl⟩, rfl, htail⟩
  | payload b rest f hx he hp hr hf hl ht => subst ht; exact .inl ⟨⟨rfl, rfl, rfl⟩, rfl, htail⟩
  | delivered r u hw hu he hp hx hl ht =>
    obtain ⟨-, ⟨hbuf, hop, hmask⟩, hparams, hinputs⟩ := commandKept_of_delivery (delivery_of_deliver ht)
    rw [hu] at hbuf hop hmask hparams hinputs
    exact .inl ⟨⟨hmask, hop, hbuf⟩, hparams, hinputs.trans htail⟩
  | reset he ht => subst he; exact .inr (.inl (nextIs_of_cons hin))

/-- Settles O58: apart from Reset only an accepted request writes the command registers, MASK by its own operand. -/
theorem commandRegistersWrittenOnlyAtAcceptance : Obligations.CommandRegistersWrittenOnlyAtAcceptance := by
  intro s t hstep hreset
  rcases commandRegisters_of_step hstep with ⟨⟨hmask, hop, hbuf⟩, hparams, htail⟩ | h |
    ⟨r, i, frame, es, hin, hi, hready, ht⟩
  · exact ⟨fun h => absurd hmask h, fun h => (h.elim (absurd hop) (absurd hbuf)), hparams, htail⟩
  · exact absurd h (ne_true_of_eq_false hreset)
  · subst ht
    obtain ⟨-, -, -, hparams, hinputs⟩ := startOf_parser i ((s.takeEvent es).accept (opcodeOf i) frame)
    refine ⟨fun hne => ⟨hready, es, ?_⟩,
      fun _ => ⟨hready, busy_of_accepted frame (s.takeEvent es) (instr_isCommand hi), r, es, hin⟩, hparams,
      hinputs.trans (by rw [hin]; rfl)⟩
    have hrequest {r' : Request} (h : r = r') : s.inputs = .cmdRequest r' :: es := hin.trans (by rw [h])
    rcases mask_startOf ((s.takeEvent es).accept (opcodeOf i) frame) hi with hmask | hmask | ⟨avg, rate, dur, hmask⟩
    · exact absurd hmask hne
    · exact .inl (hrequest hmask)
    · exact .inr ⟨avg, rate, dur, hrequest hmask⟩

/-! ### LAST_INV -/

/-- LAST_INV with LAST_INV_FLAG (R42). -/
def lastInvalid (s : State) : LastInvalid × Byte := (s.lastInv, s.lastInvFlag)

/-- What both hold after a result is taken in `s`: an Invalid result is recorded, any other leaves them (R42, R274). -/
def lastInvalidAfter (s : State) : Result → LastInvalid × Byte
  | .invalid reason f => (.reason reason, f)
  | .complete | .record _ | .debug _ | .echo _ _ => lastInvalid s

theorem lastInvalid_endSession (s : State) (st : SeqState) : lastInvalid (s.endSession st) = lastInvalid s := rfl

theorem lastInvalid_collect (r : Result) (s : State) : lastInvalid (collect r s) = lastInvalidAfter s r := by
  rcases collect_cases r s with ⟨rec, rfl, ⟨-, ht⟩ | ⟨-, ht⟩⟩ | ⟨reason, f, rfl, ⟨-, ht⟩ | ⟨-, ht⟩⟩ | ⟨rfl, ht⟩ |
    ⟨d, rfl, ht⟩ | ⟨f, e, rfl, ht⟩
  all_goals rw [ht]
  · exact lastInvalid_endSession (recordEmitted rec s) .complete
  · rfl
  · exact lastInvalid_endSession ((invalidNoted reason f s).raiseError .tooManyInvalidFrames) .aborted
  · rfl
  · exact lastInvalid_endSession s .complete
  · rfl
  · rfl

theorem lastInvalid_echoTaken (r : Result) (m : Bool) (s : State) :
    lastInvalid (echoTaken r m s) = lastInvalidAfter s r := by
  cases r <;> rfl

theorem lastInvalid_ackPhase (r : Result) (s : State) : lastInvalid (ackPhase r s) = lastInvalidAfter s r := by
  have hrecorded : lastInvalid (s.recordAck r) = lastInvalidAfter s r := by cases r <;> rfl
  rw [← hrecorded, ackPhase]
  split_ifs <;> rw [lastInvalid_endSession] <;> rfl

/-- Every phase records an Invalid result and no other (R224, R226, R231; log 14). -/
theorem lastInvalid_of_deliver {s t : State} {r : Result} (h : deliver r s = .next t) :
    lastInvalid t = lastInvalidAfter s r := by
  rcases deliver_cases h with ⟨-, rfl⟩ | ⟨-, -, m, -, rfl⟩ | ⟨-, -, rfl⟩
  · exact lastInvalid_collect r s
  · exact lastInvalid_echoTaken r m s
  · exact lastInvalid_ackPhase r s

/-- Acceptance clears both (R222). -/
theorem lastInvalid_of_accepted (i : Instr) (frame : Vector Byte 10) (s : State) :
    lastInvalid ((startOf i (s.accept (opcodeOf i) frame)).answer .none 0) = (.none, 0#8) := by
  cases i <;> rfl

theorem lastInvalid_eq_iff {t : State} {inv : LastInvalid} {f : Byte} :
    lastInvalid t = (inv, f) ↔ t.lastInv = inv ∧ t.lastInvFlag = f := Prod.mk_inj

theorem readEnds_of_cons {s : State} {e : Event} {es : List Event} (hin : s.inputs = e :: es)
    (he : e = .rxByte ∨ e = .rxTimeout) (hopen : s.rxReady = true) : readEnds s = true := by
  rcases he with rfl | rfl <;> simp [readEnds, nextIs_of_cons hin, hopen]

/-- Settles O60: a delivery records an Invalid result, acceptance and Reset clear it, and no other step writes it. -/
theorem lastInvHoldsMostRecentInvalid : Obligations.LastInvHoldsMostRecentInvalid := by
  refine ⟨fun s t reason f h => lastInvalid_eq_iff.1 (lastInvalid_of_deliver h), fun s t hstep => ?_⟩
  rcases step_cases hstep with ⟨-, rfl⟩ | ⟨e, es, hin, hmove⟩
  · exact .inl ⟨rfl, rfl⟩
  cases hmove with
  | refused r c f he hc ht => subst ht; exact .inl ⟨rfl, rfl⟩
  | accepted r i frame he hi hr hf ht =>
    subst ht
    obtain ⟨hinv, hflag⟩ := lastInvalid_eq_iff.1 (lastInvalid_of_accepted i frame (s.takeEvent es))
    exact .inr (.inl ⟨hinv, hflag, .inr ⟨hr, busy_of_accepted frame (s.takeEvent es) (instr_isCommand hi)⟩⟩)
  | dropped h1 h2 h3 ht => subst ht; exact .inl ⟨rfl, rfl⟩
  | sent buf he hs hb hx ht => subst ht; exact .inl ⟨rfl, rfl⟩
  | sentLast buf he hs hb hx ht => subst ht; rw [sendDone_frame]; exact .inl ⟨rfl, rfl⟩
  | arrived b he ht => subst ht; exact .inl ⟨rfl, rfl⟩
  | flag b rest he hp hr hl ht => subst ht; exact .inl ⟨rfl, rfl⟩
  | payload b rest f hx he hp hr hf hl ht => subst ht; exact .inl ⟨rfl, rfl⟩
  | delivered r u hw hu he hp hx hl ht =>
    have hread : readEnds s = true := readEnds_of_cons hin (he.imp And.left And.left) hw
    have hkept : lastInvalid u = lastInvalid s := by rw [hu]; rfl
    have hafter := lastInvalid_of_deliver ht
    cases r with
    | invalid reason f =>
      obtain ⟨hinv, -⟩ := lastInvalid_eq_iff.1 hafter
      exact .inr (.inr ⟨hread, reason, hinv⟩)
    | complete | record | debug | echo => exact .inl (lastInvalid_eq_iff.1 (hafter.trans hkept))
  | reset he ht => subst he ht; exact .inr (.inl ⟨rfl, rfl, .inl (nextIs_of_cons hin)⟩)

/-! ### The output log -/

/-- What an entry a session logs between `s` and `t` says (R230, R236, R237). -/
def sessionEntryOk (s t : State) : Output → Prop
  | .record n _ => s.seqState = .collecting ∧ n = s.recCount ∧ t.recCount = s.recCount + 1
  | .debug _ => s.seqState = .collecting ∧ t.seqState = .collecting
  | .sessionEnd rep => s.busy = true ∧ t.done = true ∧ rep.state = t.seqState ∧ rep.records = t.recCount ∧
      rep.invalid = t.invCount ∧ rep.error = t.lastError
  | .txByte _ | .cmdResult _ _ => False

/-- The log has grown by entries of the session, each with its cause. -/
def sessionLogged (s t : State) : Prop := ∃ outs, t.log = s.log ++ outs ∧ ∀ o ∈ outs, sessionEntryOk s t o

section log
variable {s t : State}

theorem sessionLogged_nil (hlog : t.log = s.log) : sessionLogged s t :=
  ⟨[], by rw [hlog, List.append_nil], List.forall_mem_nil _⟩

theorem endSession_log (s : State) (st : SeqState) :
    (s.endSession st).log = s.log ++ [.sessionEnd (sessionReport s st s.recCount s.invCount s.lastError)] := by
  rw [endSession_eq]

theorem sessionEntryOk_endSession {v : State} {st : SeqState} (hbusy : s.busy = true)
    (hdone : (v.endSession st).done = true) :
    sessionEntryOk s (v.endSession st) (.sessionEnd (sessionReport v st v.recCount v.invCount v.lastError)) :=
  ⟨hbusy, hdone, rfl, rfl, rfl, rfl⟩

/-- The end of a session logs its report after what has been logged before it (R237). -/
theorem sessionLogged_endSession {v : State} {st : SeqState} {outs : List Output} (hbusy : s.busy = true)
    (hdone : (v.endSession st).done = true) (hlog : v.log = s.log ++ outs)
    (houts : ∀ o ∈ outs, sessionEntryOk s (v.endSession st) o) : sessionLogged s (v.endSession st) := by
  refine ⟨_, by rw [endSession_log, hlog, List.append_assoc], fun o ho => ?_⟩
  rcases List.mem_append.1 ho with ho | ho
  · exact houts o ho
  · rw [List.mem_singleton.1 ho]
    exact sessionEntryOk_endSession hbusy hdone

/-- What the delivery of a result logs (R230, R236, R237). -/
theorem sessionLogged_of_delivery (h : Delivery s t) : sessionLogged s t := by
  have hnil : s.log = s.log ++ [] := (List.append_nil _).symm
  have hnone {u : State} : ∀ o ∈ ([] : List Output), sessionEntryOk s u o := List.forall_mem_nil _
  have hrecord {rec : Record} {u : State} (hs : s.seqState = .collecting) (hu : u.recCount = s.recCount + 1) :
      ∀ o ∈ [Output.record s.recCount rec], sessionEntryOk s u o := by
    intro o ho
    rw [List.mem_singleton.1 ho]
    exact ⟨hs, rfl, hu⟩
  cases h with
  | recordEnds rec hs hm ht =>
    subst ht
    exact sessionLogged_endSession (v := recordEmitted rec s) (busy_of_collecting hs) rfl rfl (hrecord hs rfl)
  | recordKept rec hs ht => subst ht; exact ⟨_, rfl, hrecord hs rfl⟩
  | invalidAborts reason f hs hx ht =>
    subst ht
    have hlog : ((invalidNoted reason f s).raiseError .tooManyInvalidFrames).log = s.log ++ [] := by simp [invalidNoted]
    exact sessionLogged_endSession (busy_of_collecting hs) rfl hlog hnone
  | invalidKept reason f hs ht => subst ht; exact sessionLogged_nil rfl
  | completeEnds hs ht => subst ht; exact sessionLogged_endSession (busy_of_collecting hs) rfl hnil hnone
  | debugKept d hs ht =>
    subst ht
    refine ⟨_, rfl, fun o ho => ?_⟩
    rw [List.mem_singleton.1 ho]
    exact ⟨hs, hs⟩
  | echoDropped hs ht => subst ht; exact sessionLogged_nil rfl
  | echoTaken r m hs hp ht => subst ht; rw [echoTaken, recordEcho_frame]; exact sessionLogged_nil rfl
  | ackMatched k inv f hs hp hm ht => subst ht; exact sessionLogged_endSession (busy_of_configSent hs) rfl hnil hnone
  | ackFailed k inv f hs hp hm ht =>
    subst ht
    have hlog : ((ackNoted k inv f s).raiseError .configMismatch).log = s.log ++ [] := hnil
    exact sessionLogged_endSession (busy_of_configSent hs) rfl hlog hnone

end log

/-- What an entry among the entries `outs` of one step says: a byte of the offered frame and an answer stand alone
(R180, R191). -/
def entryOk (s t : State) (outs : List Output) : Output → Prop
  | .txByte b => outs = [.txByte b] ∧ nextIs s .txAccept = true ∧ s.txValid = true ∧
      ∃ buf, s.cmdBuf = some buf ∧ buf[s.txIdx]? = some b
  | .cmdResult c f => outs = [.cmdResult c f] ∧ ∃ r es, s.inputs = .cmdRequest r :: es
  | .record n r => sessionEntryOk s t (.record n r)
  | .debug d => sessionEntryOk s t (.debug d)
  | .sessionEnd rep => sessionEntryOk s t (.sessionEnd rep)

/-- The log has grown by entries with their causes. -/
def logged (s t : State) : Prop := ∃ outs, t.log = s.log ++ outs ∧ ∀ o ∈ outs, entryOk s t outs o

section step
variable {s t : State}

theorem entryOk_of_sessionEntryOk {o : Output} {outs : List Output} (h : sessionEntryOk s t o) :
    entryOk s t outs o := by
  cases o with
  | txByte | cmdResult => cases h
  | record | debug | sessionEnd => exact h

theorem logged_of_sessionLogged (h : sessionLogged s t) : logged s t := by
  obtain ⟨outs, hlog, houts⟩ := h
  exact ⟨outs, hlog, fun o ho => entryOk_of_sessionEntryOk (houts o ho)⟩

theorem logged_nil (hlog : t.log = s.log) : logged s t := logged_of_sessionLogged (sessionLogged_nil hlog)

theorem logged_single {o : Output} (hlog : t.log = s.log ++ [o]) (ho : entryOk s t [o] o) : logged s t :=
  ⟨[o], hlog, List.forall_mem_singleton.2 ho⟩

/-- A request logs its answer (R180). -/
theorem logged_cmdResult {c : ErrorCode} {f : Byte} {r : Request} {es : List Event}
    (hin : s.inputs = .cmdRequest r :: es) (hlog : t.log = s.log ++ [.cmdResult c f]) : logged s t :=
  logged_single hlog ⟨rfl, r, es, hin⟩

/-- An enabled TxAccept logs the byte it takes (R191). -/
theorem logged_txByte {buf : Vector Byte 10} (hsend : s.sending = true) (hidx : s.txIdx < 10)
    (hbuf : s.cmdBuf = some buf) (hnext : nextIs s .txAccept = true)
    (hlog : t.log = s.log ++ [.txByte buf[s.txIdx]]) : logged s t := by
  have hvalid : s.txValid = true := by simp [State.txValid, hsend, hidx]
  exact logged_single hlog ⟨rfl, hnext, hvalid, buf, hbuf, Vector.getElem?_eq_getElem hidx⟩

theorem log_startOf (i : Instr) (s : State) : (startOf i s).log = s.log := by cases i <;> rfl

/-- What a step logs. -/
theorem logged_of_step (hstep : step s = .next t) : logged s t := by
  rcases step_cases hstep with ⟨-, rfl⟩ | ⟨e, es, hin, hmove⟩
  · exact logged_nil rfl
  cases hmove with
  | refused r c f he hc ht => subst he ht; exact logged_cmdResult hin rfl
  | accepted r i frame he hi hr hf ht =>
    subst he ht
    exact logged_cmdResult hin (congrArg (· ++ _) (log_startOf i ((s.takeEvent es).accept (opcodeOf i) frame)))
  | dropped h1 h2 h3 ht => subst ht; exact logged_nil rfl
  | sent buf he hs hb hx ht =>
    subst he ht
    exact logged_txByte hs (Nat.lt_succ_of_lt hx) hb (nextIs_of_cons hin) rfl
  | sentLast buf he hs hb hx ht =>
    have hidx : s.txIdx = 9 := hx
    subst he ht
    refine logged_txByte hs (hidx.trans_lt (by decide)) hb (nextIs_of_cons hin) ?_
    rw [sendDone_frame]
    simp only [hidx]
    rfl
  | arrived b he ht => subst ht; exact logged_nil rfl
  | flag b rest he hp hr hl ht => subst ht; exact logged_nil rfl
  | payload b rest f hx he hp hr hf hl ht => subst ht; exact logged_nil rfl
  | delivered r u hw hu he hp hx hl ht =>
    have hlogged := sessionLogged_of_delivery (delivery_of_deliver ht)
    rw [hu] at hlogged
    exact logged_of_sessionLogged hlogged
  | reset he ht => subst ht; exact logged_nil rfl

end step

/-- Settles O56: each kind of entry has the cause its clause names. -/
theorem outputLogOnlyGrows : Obligations.OutputLogOnlyGrows := by
  intro s t hstep
  obtain ⟨outs, hlog, houts⟩ := logged_of_step hstep
  exact ⟨outs, hlog, fun _ _ => houts _, fun _ => houts _, fun _ => houts _, fun _ => houts _, fun _ _ => houts _⟩

end Sys2Proof.Claims
end

section
/-! PROOFS. The status view: each field of a concatenation stands above the widths of the fields below it. -/

namespace Sys2Proof.Claims

open Sys2Proof.Machine

/-- A flag below `x` is bit 0, and the bits of `x` stand one higher. -/
theorem getLsbD_append_ofBool_zero {n : Nat} (x : BitVec n) (b : Bool) : (x ++ BitVec.ofBool b).getLsbD 0 = b := by
  rw [BitVec.getLsbD_append]
  simp

theorem getLsbD_append_ofBool_succ {n : Nat} (x : BitVec n) (b : Bool) (k : Nat) :
    (x ++ BitVec.ofBool b).getLsbD (k + 1) = x.getLsbD k := by
  simp [BitVec.getLsbD_append]

section view
variable (s : State)

/-- A count shows as it is within its 64 bits (R44). -/
theorem viewCount_toNat {n : Nat} (events no : Nat) (h : n < 2 ^ 64) : (viewCount events no n).toNat = n := by
  rw [viewCount, if_pos h, BitVec.toNat_ofNat, Nat.mod_eq_of_lt h]

/-- MISSING shows as it is within its 64 bits (R39, R44). -/
theorem viewMissing_toInt (hlow : -(2 ^ 63) ≤ s.missing) (hhigh : s.missing < 2 ^ 63) :
    s.viewMissing.toInt = s.missing := by
  rw [State.viewMissing, if_pos ⟨hlow, hhigh⟩]
  exact BitVec.toInt_ofInt_eq_self (by decide) hlow hhigh

theorem viewState_fields : s.viewState.extractLsb' 0 4 = s.seqState.code ∧ s.viewState.extractLsb' 4 2 = s.sub.code ∧
    s.viewState.extractLsb' 6 2 = s.mode.code := by
  unfold State.viewState
  refine ⟨BitVec.extractLsb'_append_eq_right, ?sub, ?mode⟩
  case sub =>
    rw [BitVec.extractLsb'_append_eq_of_le (by decide)]
    exact BitVec.extractLsb'_append_eq_right
  case mode =>
    rw [BitVec.extractLsb'_append_eq_of_le (by decide), BitVec.extractLsb'_append_eq_of_le (by decide)]
    exact BitVec.extractLsb'_eq_self

theorem viewFlags_bits : s.viewFlags[0] = s.busy ∧ s.viewFlags[1] = s.ready ∧ s.viewFlags[2] = s.done ∧
    s.viewFlags[3] = s.cfgOk ∧ s.viewFlags[4] = s.abort ∧ s.viewFlags[5] = s.echoValid ∧
    s.viewFlags[6] = s.expValid ∧ s.viewFlags[7] = s.cfgMatch := by
  simp only [← BitVec.getLsbD_eq_getElem, State.viewFlags]
  refine ⟨?_, ?_, ?_, ?_, ?_, ?_, ?_, ?cfgMatch⟩
  all_goals repeat rw [getLsbD_append_ofBool_succ]
  case cfgMatch => exact BitVec.getLsbD_ofBool s.cfgMatch 0
  all_goals exact getLsbD_append_ofBool_zero _ _

theorem viewMask_fields : s.viewMask.extractLsb' 0 4 = s.mask ∧ s.viewMask.extractLsb' 4 4 = 0 :=
  ⟨BitVec.extractLsb'_append_eq_right, BitVec.extractLsb'_append_eq_left⟩

theorem viewLastInv_fields : s.viewLastInv.extractLsb' 0 3 = s.lastInv.code ∧ s.viewLastInv.extractLsb' 3 5 = 0 ∧
    s.viewLastInv.extractLsb' 8 8 = s.lastInvFlag := by
  unfold State.viewLastInv
  refine ⟨BitVec.extractLsb'_append_eq_right, ?zeros, ?flag⟩
  case zeros =>
    rw [BitVec.extractLsb'_append_eq_of_le (by decide)]
    exact BitVec.extractLsb'_append_eq_right
  case flag =>
    rw [BitVec.extractLsb'_append_eq_of_le (by decide)]
    exact BitVec.extractLsb'_append_eq_left

theorem viewEcho_fields : s.viewEcho.extractLsb' 0 8 = s.echoFlag ∧
    s.viewEcho.extractLsb' 8 4 = BitVec.ofNat 4 s.echoLen ∧ s.viewEcho.extractLsb' 12 4 = 0 := by
  unfold State.viewEcho
  refine ⟨BitVec.extractLsb'_append_eq_right, ?len, ?zeros⟩
  case len =>
    rw [BitVec.extractLsb'_append_eq_of_le (by decide)]
    exact BitVec.extractLsb'_append_eq_right
  case zeros =>
    rw [BitVec.extractLsb'_append_eq_of_le (by decide), BitVec.extractLsb'_append_eq_of_le (by decide)]
    exact BitVec.extractLsb'_append_eq_right

/-- Byte `k` of S10 stands above the flag, the length, the zeros and the bytes before it (R44). -/
theorem viewEcho_byte (k : Fin 9) : s.viewEcho.extractLsb' (16 + 8 * k.val) 8 = s.viewEchoByte k := by
  unfold State.viewEcho
  fin_cases k
  all_goals repeat rw [BitVec.extractLsb'_append_eq_of_le (by decide)]
  iterate 8 exact BitVec.extractLsb'_append_eq_right
  exact BitVec.extractLsb'_eq_self

/-- A written byte of a valid echo shows as it is (R44). -/
theorem viewEchoByte_eq {k : Fin 9} {b : Byte} (hbyte : s.echoBuf[k] = some b) (hvalid : s.echoValid = true)
    (hlen : k.val < s.echoLen) : s.viewEchoByte k = b := by
  rw [State.viewEchoByte, hbyte]
  exact if_pos ⟨hvalid, hlen⟩

theorem viewAckKind_fields : s.viewAckKind.extractLsb' 0 3 = s.ackKind.code ∧ s.viewAckKind.extractLsb' 3 5 = 0 :=
  ⟨BitVec.extractLsb'_append_eq_right, BitVec.extractLsb'_append_eq_left⟩

theorem viewParser_fields : s.viewParser.extractLsb' 0 2 = s.pst.code ∧
    s.viewParser.extractLsb' 2 6 = BitVec.ofNat 6 s.idx ∧
    s.viewParser.extractLsb' 8 8 = s.flag.getD (Config.unspecifiedByte s.events 0) := by
  unfold State.viewParser
  refine ⟨BitVec.extractLsb'_append_eq_right, ?idx, ?flag⟩
  case idx =>
    rw [BitVec.extractLsb'_append_eq_of_le (by decide)]
    exact BitVec.extractLsb'_append_eq_right
  case flag =>
    rw [BitVec.extractLsb'_append_eq_of_le (by decide)]
    exact BitVec.extractLsb'_append_eq_left

end view

/-- Settles O51: the registers by number, each view's fields by position, and the encodings by their definitions. -/
theorem statusViewBitPositions : Obligations.StatusViewBitPositions := by
  refine ⟨fun s => ⟨⟨rfl, rfl, rfl, rfl, rfl, rfl, viewCount_toNat _ _, ?invCount, viewCount_toNat _ _,
      viewMissing_toInt s, rfl, rfl, rfl⟩, viewState_fields s, viewFlags_bits s, viewMask_fields s,
      viewLastInv_fields s, ?echo, viewAckKind_fields s, ?parser⟩, by decide⟩
  case invCount =>
    intro h
    exact (BitVec.toNat_ofNat s.invCount 8).trans (Nat.mod_eq_of_lt h)
  case echo =>
    obtain ⟨hflag, hlen, hzeros⟩ := viewEcho_fields s
    exact ⟨hflag, hlen, hzeros,
      fun k b hbyte hvalid hk => (viewEcho_byte s k).trans (viewEchoByte_eq s hbyte hvalid hk)⟩
  case parser =>
    obtain ⟨hpst, hidx, hflag⟩ := viewParser_fields s
    exact ⟨hpst, hidx, fun b hb => hflag.trans (by rw [hb]; rfl)⟩

end Sys2Proof.Claims
end
